-- ==== Sys2Proof/Word.lean ====
section
/-! DEFINITION. The word types of the Horus L2 codec core and their plainest arithmetic (00_scope.md R8, R11). -/

namespace Sys2Proof

/-- A 32-bit register or bus word (10_state.md R32). -/
abbrev Word := BitVec 32

/-- A byte of BUF, bit 7 the most significant (00_scope.md R8). -/
abbrev Byte := BitVec 8

/-- `zext_32` (00_scope.md R11): zero-extension to 32 bits. -/
abbrev zext32 {w : Nat} (v : BitVec w) : Word := v.setWidth 32

/-- One bit as a word. -/
abbrev bitWord (b : Bool) : Word := if b then 1#32 else 0#32

end Sys2Proof
end

