-- ==== Sys2Proof/Config.lean ====
section
/-! DEFINITION. The parameters of 00_scope.md R7, the hardwired register values, and the free values: opaque constants
for what 92_eei_decisions.md leaves OPEN (LATENCY, D19; BUF_INIT, D18). -/

namespace Sys2Proof.Config

/-- BUF_BYTES (00_scope.md R7). -/
abbrev bufBytes : Nat := 1024

/-- ABITS, the width of a BUF address (00_scope.md R7). -/
abbrev aBits : Nat := 10

/-- LMAX, the largest payload length (00_scope.md R7). -/
abbrev lmax : Nat := 255

/-- SIZES, what DECODE accepts while ANYLEN = 0 (00_scope.md R7). -/
abbrev sizes : List Nat := [22, 32]

/-- UW, the unique word (00_scope.md R7, 43_framing.md R240). -/
def uw : List Byte := [0x24, 0x24]

/-- CRC_POLY: x^16 + x^12 + x^5 + 1 (00_scope.md R7, 40_crc.md R140). -/
def crcPoly : BitVec 16 := 0x1021

/-- CRC_INIT_RESET (00_scope.md R7, 10_state.md R47). -/
def crcInitReset : BitVec 16 := 0xFFFF

/-- GOLAY_G: x^11 + x^10 + x^6 + x^5 + x^4 + x^2 + 1 (00_scope.md R7, 41_fec.md R161), in the 23-bit space it is shifted in. -/
def golayG : BitVec 23 := 0xC75

/-- SCR_SEED (00_scope.md R7, 42_interleave_scramble.md R204). -/
def scrSeed : BitVec 15 := 0x4A80

/-- ID (10_state.md R31). -/
def idValue : Word := 0x484C3201

/-- UWREG (10_state.md R48). -/
def uwRegValue : Word := 0x00002424

/-- PARAM: LMAX in bits 31:16, BUF_BYTES in bits 15:0 (10_state.md R49). -/
def paramValue : Word := 0x00FF0400

/-- LATENCY (70_reset_and_hazards.md R349), a free value: any natural for each issue, command word and operands; 0 counts
as 1, the least the rule allows (`State.issue`). DESIGN CHOICE, safe: notes/assumptions/2.md. -/
opaque latency (issue : Nat) (cmd : Word) (operands : List Word) : Nat

/-- BUF_INIT (70_reset_and_hazards.md R342), a free value: the byte at each address after each reset, until it is
written. DESIGN CHOICE, safe: notes/assumptions/1.md. -/
opaque bufInit (resets : Nat) (addr : Nat) : Byte

end Sys2Proof.Config
end

