-- ==== Sys2Proof/Syntax.lean ====
section
/-! DEFINITION. The commands of the block: one constructor for each row of spec/opcode_table.json (30_encoding.md R116). -/

namespace Sys2Proof

/-- A legal command word (30_encoding.md R116, R117). The only operands in the word are the flags a row allows: CI (R112), IB
(R113) and SB (R114); all other operands stand in the operand latch (10_state.md R46, 30_encoding.md R118). -/
inductive Instr where
  /-- 0x00, 44_packet.md R270. -/
  | nop
  /-- 0x01, 40_crc.md R143. -/
  | crc16
  /-- 0x02, 41_fec.md R168. -/
  | golayEnc
  /-- 0x03, 41_fec.md R169. -/
  | golayDec
  /-- 0x04, 42_interleave_scramble.md R207. -/
  | interleave
  /-- 0x05, 42_interleave_scramble.md R208. -/
  | deinterleave
  /-- 0x06, 42_interleave_scramble.md R209. -/
  | scramble
  /-- 0x07, 43_framing.md R246. -/
  | sync
  /-- 0x08, 43_framing.md R247. -/
  | txsize
  /-- 0x09, 44_packet.md R286. -/
  | encode (ci ib sb : Bool)
  /-- 0x0A, 44_packet.md R287. -/
  | decode (ib sb : Bool)
  deriving DecidableEq, Repr

end Sys2Proof
end

