-- ==== Sys2Proof/Machine/Bus.lean ====
section
/-! DEFINITION. What the host does at the bus: registers, transactions and the primitive lines of a host program, as data
(10_state.md R30, 20_memory.md R80, 30_encoding.md R121). Their meaning stands in Machine/Ops.lean and Machine/HostProgram.lean. -/

namespace Sys2Proof.Machine

/-- The fifteen registers (10_state.md R30). -/
inductive Reg where
  | id | ctrl | status | cmd | src | dst | len | ecaddr | arg0 | arg1 | result0 | result1 | crcinit | uwreg | param
  deriving DecidableEq, Repr

/-- One bus transaction at an 11-bit byte address (20_memory.md R80, R81). -/
inductive BusOp where
  | read (addr : BitVec 11)
  | write (addr : BitVec 11) (data : Word)
  deriving DecidableEq, Repr

/-- A host branch condition on the last value read (30_encoding.md R121). -/
inductive Cond where
  /-- `Z`: zero. -/
  | z
  /-- `NZ`: nonzero. -/
  | nz
  /-- `BS n`: bit n set. -/
  | bs (n : Fin 32)
  /-- `BC n`: bit n clear. -/
  | bc (n : Fin 32)
  deriving DecidableEq, Repr

/-- A primitive line of a host program (30_encoding.md R121). A label is resolved to the number of the line it stands before
(notes/assumptions/6.md). -/
inductive HostLine where
  /-- `WR <reg>, <value>`. -/
  | wr (r : Reg) (v : Word)
  /-- `WRW <haddr>, <value>`. -/
  | wrw (a : BitVec 11) (v : Word)
  /-- `RD <reg>`. -/
  | rd (r : Reg)
  /-- `RDW <haddr>`. -/
  | rdw (a : BitVec 11)
  /-- `B<cond> <label>`. -/
  | branch (c : Cond) (target : Nat)
  /-- `GO <command>` (R122: a legal command; an illegal word is written with `WR CMD`). -/
  | go (i : Instr)
  deriving DecidableEq, Repr

end Sys2Proof.Machine
end

