-- ==== Sys2Proof/Machine/State.lean ====
section
/-! DEFINITION. The state of the block and of what drives its pins, as plain data (10_state.md), the ways a step can stop, and
the state after reset (10_state.md R55). -/

namespace Sys2Proof.Machine

/-- CTRL (10_state.md R35). Bits 31:2 are RAZ/WI and not stored. -/
structure Ctrl where
  /-- Bit 0. -/
  anylen : Bool
  /-- Bit 1. -/
  irqen : Bool
  deriving DecidableEq, Repr

/-- STATUS (10_state.md R36). Bits 7:6 and 31:12 are RAZ/WI and not stored. -/
structure Status where
  /-- Bit 0: the engine state, Idle or Busy (R45). -/
  busy : Bool
  /-- Bit 1, W1C. -/
  done : Bool
  /-- Bit 2. -/
  sync : Bool
  /-- Bit 3. -/
  crcOk : Bool
  /-- Bit 4. -/
  uncorr : Bool
  /-- Bit 5, W1C. -/
  ovr : Bool
  /-- Bits 11:8 (60_exceptions.md R301). -/
  err : BitVec 4
  deriving DecidableEq, Repr

/-- `lat`: the operands of the command in progress, copied at issue (10_state.md R46). -/
structure Latch where
  cmd : Word
  src : BitVec 10
  dst : BitVec 10
  len : BitVec 11
  ecaddr : BitVec 10
  arg0 : Word
  arg1 : Word
  crcinit : BitVec 16
  anylen : Bool
  deriving DecidableEq, Repr

/-- BUF as it has been written since reset: (address, byte) pairs, addresses strictly rising and below BUF_BYTES (`Memory.wf`).
An address that is not listed holds the free byte `Config.bufInit` (10_state.md R51, 70_reset_and_hazards.md R342). -/
abbrev Memory := List Host.Cell

/-- Every piece of state the spec gives the machine, then the model's own fields (INVENTORY.md). -/
structure State where
  /-- CTRL (10_state.md R35). -/
  ctrl : Ctrl
  /-- STATUS (10_state.md R36). -/
  status : Status
  /-- CMD (10_state.md R38). -/
  cmd : Word
  /-- SRC.ADDR (10_state.md R39). -/
  src : BitVec 10
  /-- DST.ADDR (10_state.md R40). -/
  dst : BitVec 10
  /-- LEN.N (10_state.md R41). -/
  len : BitVec 11
  /-- ECADDR.ADDR (10_state.md R42). -/
  ecaddr : BitVec 10
  /-- ARG0 (10_state.md R43). -/
  arg0 : Word
  /-- ARG1 (10_state.md R43). -/
  arg1 : Word
  /-- RESULT0 (10_state.md R44). -/
  result0 : Word
  /-- RESULT1 (10_state.md R44). -/
  result1 : Word
  /-- CRCINIT.VALUE (10_state.md R47). -/
  crcinit : BitVec 16
  /-- The hidden operand latch (10_state.md R46). -/
  lat : Latch
  /-- BUF (10_state.md R51). -/
  buf : Memory
  /-- The word the last completed read put on rdata (20_memory.md R80), `@` of 30_encoding.md R121. -/
  rdata : Word
  /-- rst_n as last sampled: false while the block is held in reset (70_reset_and_hazards.md R340). -/
  rstn : Bool
  /-- MODEL: the host's program (30_encoding.md R121; notes/assumptions/5.md). -/
  prog : List HostLine
  /-- MODEL: the host's place in its program. -/
  pos : Nat
  /-- MODEL: the levels rst_n will be sampled at, high once the list is empty (notes/assumptions/8.md). -/
  rstIn : List Bool
  /-- MODEL: while Busy, the steps still left to the host before the engine moves (70_reset_and_hazards.md R349). -/
  wait : Nat
  /-- MODEL: latencies prescribed for the coming issues; `Config.latency` where none is (notes/assumptions/2.md). -/
  latencies : List Nat
  /-- MODEL: commands issued so far, which draws the free latency of an issue. -/
  issues : Nat
  /-- MODEL: resets taken so far, which draws the free contents of BUF. -/
  resets : Nat
  deriving DecidableEq, Repr

/-- A reason for a step to stop with a fault: there is none. An error is a command that completes with STATUS.ERR set
(60_exceptions.md R301 to R305), and the block has no trap (R311); safe (notes/assumptions/17.md). -/
inductive Fault where
  deriving DecidableEq, Repr

/-- A reason for the model to have no meaning for an instruction. -/
inductive Refusal where
  /-- An arm of `exec` that has no meaning yet, raised by `exec` alone; safe. No arm raises it. -/
  | notModelled (mnemonic : String)
  deriving DecidableEq, Repr

/-- The outcome of a step of this machine. -/
abbrev Out := Host.Outcome State Fault Refusal

/-- STATUS after reset: Idle, no error (10_state.md R55). -/
def Status.reset : Status :=
  { busy := false, done := false, sync := false, crcOk := false, uncorr := false, ovr := false, err := 0 }

/-- The latch after reset. The spec leaves it unspecified (10_state.md R55); DESIGN CHOICE zero, unsafe
(notes/assumptions/3.md). -/
def Latch.reset : Latch :=
  { cmd := 0, src := 0, dst := 0, len := 0, ecaddr := 0, arg0 := 0, arg1 := 0, crcinit := 0, anylen := false }

/-- The machine right after reset (10_state.md R55, 70_reset_and_hazards.md R340). The latch, rdata and the model's own fields
have no reset value in the spec: notes/assumptions/3.md, 4.md and 9.md. -/
def State.reset : State :=
  { ctrl := { anylen := false, irqen := false }
    status := Status.reset
    cmd := 0
    src := 0
    dst := 0
    len := 0
    ecaddr := 0
    arg0 := 0
    arg1 := 0
    result0 := 0
    result1 := 0
    crcinit := Config.crcInitReset
    lat := Latch.reset
    buf := []
    rdata := 0
    rstn := true
    prog := []
    pos := 0
    rstIn := []
    wait := 0
    latencies := []
    issues := 0
    resets := 0 }

end Sys2Proof.Machine
end

