-- ==== Sys2Proof/Machine/Flags.lean ====
section
/-! DEFINITION. CTRL and STATUS as words, every update of a STATUS flag, the error codes and the interrupt line
(10_state.md R35 to R38, R54, R56; 60_exceptions.md R301, R305, R308). -/

namespace Sys2Proof.Machine

/-- ERR = NONE (60_exceptions.md R301). -/
def errNone : BitVec 4 := 0

/-- ERR = ILLEGAL_CMD (60_exceptions.md R301). -/
def errIllegalCmd : BitVec 4 := 1

/-- ERR = BAD_LENGTH (60_exceptions.md R301). -/
def errBadLength : BitVec 4 := 2

/-- ERR = BAD_ADDRESS (60_exceptions.md R301). -/
def errBadAddress : BitVec 4 := 3

/-- CTRL as it reads (10_state.md R35, R50). -/
def Ctrl.word (c : Ctrl) : Word := bitWord c.anylen ||| (bitWord c.irqen <<< 1)

/-- CTRL as a host write leaves it (10_state.md R35, R50). -/
def Ctrl.ofWord (w : Word) : Ctrl := { anylen := w.getLsbD 0, irqen := w.getLsbD 1 }

/-- STATUS as it reads (10_state.md R36, R50). -/
def Status.word (t : Status) : Word :=
  bitWord t.busy ||| (bitWord t.done <<< 1) ||| (bitWord t.sync <<< 2) ||| (bitWord t.crcOk <<< 3)
    ||| (bitWord t.uncorr <<< 4) ||| (bitWord t.ovr <<< 5) ||| (zext32 t.err <<< 8)

/-- A host write of w to STATUS clears DONE by bit 1 and OVR by bit 5, and does nothing else (10_state.md R37). -/
def Status.hostWrite (t : Status) (w : Word) : Status :=
  { t with done := t.done && !w.getLsbD 1, ovr := t.ovr && !w.getLsbD 5 }

/-- The flags at issue: ERR and DONE cleared, BUSY set (10_state.md R36, R38, 60_exceptions.md R302). SYNC, CRC_OK and UNCORR
keep the previous command's values (70_reset_and_hazards.md R347; how its list takes ERR: notes/assumptions/23.md). -/
def Status.issue (t : Status) : Status := { t with err := errNone, done := false, busy := true }

/-- A CMD write while Busy sets OVR (10_state.md R38, 60_exceptions.md R307). -/
def Status.overrun (t : Status) : Status := { t with ovr := true }

/-- Completion: BUSY clear, DONE set, ERR the code (60_exceptions.md R305). -/
def Status.complete (t : Status) (code : BitVec 4) : Status := { t with busy := false, done := true, err := code }

/-- `irq = STATUS.DONE & CTRL.IRQEN` (10_state.md R54, 60_exceptions.md R308). -/
def State.irq (s : State) : Bool := s.status.done && s.ctrl.irqen

end Sys2Proof.Machine
end

