-- ==== Sys2Proof/Machine/Operands.lean ====
section
/-! DEFINITION. Operand assembly: what a command reads of the operand latch (10_state.md R46, 30_encoding.md R118, R119), and
the range check of a region (20_memory.md R88). -/

namespace Sys2Proof.Machine

/-- `lat[SRC].ADDR`, an unsigned BUF address (30_encoding.md R118). -/
def State.opSrc (s : State) : Nat := s.lat.src.toNat

/-- `lat[DST].ADDR` (30_encoding.md R118). -/
def State.opDst (s : State) : Nat := s.lat.dst.toNat

/-- `lat[LEN].N`, an unsigned byte count (30_encoding.md R118). -/
def State.opLen (s : State) : Nat := s.lat.len.toNat

/-- `lat[ECADDR].ADDR` (30_encoding.md R118). -/
def State.opEc (s : State) : Nat := s.lat.ecaddr.toNat

/-- `lat[CRCINIT].VALUE` (30_encoding.md R118). -/
def State.opInit (s : State) : BitVec 16 := s.lat.crcinit

/-- `lat[CTRL].ANYLEN` (30_encoding.md R118). -/
def State.opAnylen (s : State) : Bool := s.lat.anylen

/-- The data word `lat[ARG0][11:0]` of GOLAY_ENC (30_encoding.md R119). -/
def State.opData (s : State) : BitVec 12 := s.lat.arg0.setWidth 12

/-- The received word `lat[ARG0][22:0]` of GOLAY_DEC (30_encoding.md R119). -/
def State.opCodeword (s : State) : BitVec 23 := s.lat.arg0.setWidth 23

/-- The known-zero mask `lat[ARG1][11:0]` of GOLAY_DEC (30_encoding.md R119). -/
def State.opKnownZero (s : State) : BitVec 12 := s.lat.arg1.setWidth 12

/-- `inRange(a, n)`: the region fits in BUF, with no wrap-around (20_memory.md R88). -/
def inRange (a n : Nat) : Bool := a + n ≤ Config.bufBytes

end Sys2Proof.Machine
end

