-- ==== Sys2Proof/Machine/Ops.lean ====
section
/-! DEFINITION. The named operations over BUF, the registers and the bus: byte access, register access, issue, completion and
error, and one bus transaction (10_state.md, 20_memory.md, 60_exceptions.md). -/

namespace Sys2Proof.Machine

/-! ### BUF -/

/-- The canonical form of BUF: addresses strictly rising, all below BUF_BYTES. No entry can repeat what an unlisted address
reads as, since that is a free value (notes/assumptions/20.md). -/
def Memory.wf (m : Memory) : Bool :=
  decide (m.Pairwise fun x y => x.1 < y.1) && m.all fun c => c.1 < Config.bufBytes

/-- The byte written at an address, if any. -/
def Memory.get? (m : Memory) (a : Nat) : Option Byte := m.lookup a

/-- The cells of a byte string from an address on. -/
def cellsFrom (a : Nat) (V : List Byte) : Memory := V.mapIdx fun i b => (a + i, b)

/-- The byte string written from address a on, in place of what stood there. What would lie past the end of BUF is dropped: no
command and no transaction writes there (20_memory.md R88, notes/assumptions/14.md). -/
def Memory.write (m : Memory) (a : Nat) (V : List Byte) : Memory :=
  m.filter (fun c => c.1 < a) ++ cellsFrom a (V.take (Config.bufBytes - a)) ++ m.filter (fun c => a + V.length ≤ c.1)

/-- `BUF[a]`: the byte written there, else the free byte the last reset left (10_state.md R51, 70_reset_and_hazards.md R342). -/
def State.byteAt (s : State) (a : Nat) : Byte := (s.buf.get? a).getD (Config.bufInit s.resets a)

/-- `MemRead(a, n)` (00_scope.md R13, 20_memory.md R91). -/
def State.memRead (s : State) (a n : Nat) : List Byte := (List.range n).map fun i => s.byteAt (a + i)

/-- `MemWrite(a, n, V)` with n the length of V (00_scope.md R13, 20_memory.md R91). -/
def State.memWrite (s : State) (a : Nat) (V : List Byte) : State := { s with buf := s.buf.write a V }

/-! ### Completion and error -/

/-- The end of every command: completion with its error code (60_exceptions.md R305). -/
def State.completeWith (s : State) (code : BitVec 4) : State := { s with status := s.status.complete code }

/-- Completion without an error (60_exceptions.md R305). -/
def State.complete (s : State) : State := s.completeWith errNone

/-- `raise <Error>(code)`: the command ends with ERR = code, DONE = 1, BUSY = 0 and no other change: nothing is saved and
control goes nowhere (00_scope.md R13, 60_exceptions.md R304, R311). -/
def State.raise (s : State) (code : BitVec 4) : State := s.completeWith code

/-- What takes the place of a return: the host's acknowledgement, a STATUS write (60_exceptions.md R309, R312). -/
def State.writeStatus (s : State) (w : Word) : State := { s with status := s.status.hostWrite w }

/-- The checks of a command in their order, length before address, then its effect (60_exceptions.md R302, R303). -/
def State.checked (s : State) (badLength badAddress : Bool) (effect : State) : Out :=
  if badLength then .next (s.raise errBadLength)
  else if badAddress then .next (s.raise errBadAddress)
  else .next effect

/-- RESULT0 and RESULT1 (10_state.md R44). -/
def State.setResults (s : State) (r0 r1 : Word) : State := { s with result0 := r0, result1 := r1 }

/-- STATUS.SYNC (10_state.md R36). -/
def State.setSync (s : State) (b : Bool) : State := { s with status := { s.status with sync := b } }

/-- STATUS.CRC_OK (10_state.md R36). -/
def State.setCrcOk (s : State) (b : Bool) : State := { s with status := { s.status with crcOk := b } }

/-- STATUS.UNCORR (10_state.md R36). -/
def State.setUncorr (s : State) (b : Bool) : State := { s with status := { s.status with uncorr := b } }

/-! ### Issue -/

/-- The operands as they are copied at issue, with the command word w (10_state.md R46). -/
def State.snapshot (s : State) (w : Word) : Latch :=
  { cmd := w, src := s.src, dst := s.dst, len := s.len, ecaddr := s.ecaddr, arg0 := s.arg0, arg1 := s.arg1
    crcinit := s.crcinit, anylen := s.ctrl.anylen }

/-- The operands of a latched command, for LATENCY(cmd, operands) (70_reset_and_hazards.md R349). -/
def Latch.operands (l : Latch) : List Word :=
  [zext32 l.src, zext32 l.dst, zext32 l.len, zext32 l.ecaddr, l.arg0, l.arg1, zext32 l.crcinit, bitWord l.anylen]

/-- The latency of the next issue: the one the environment prescribes, else the free value (70_reset_and_hazards.md R349;
notes/assumptions/2.md). -/
def State.nextLatency (s : State) (l : Latch) : Nat :=
  s.latencies.headD (Config.latency s.issues l.cmd l.operands)

/-- A command word taken by the engine: CMD written, operands latched, ERR and DONE cleared, BUSY set (10_state.md R38). The
engine moves after `n` more steps. -/
def State.take (s : State) (w : Word) (n : Nat) : State :=
  { s with cmd := w, lat := s.snapshot w, status := s.status.issue, wait := n }

/-- The issue of a command word by the host (10_state.md R38, 70_reset_and_hazards.md R349): a latency of k, at least 1, lets
k - 1 steps pass before the engine's. -/
def State.issue (s : State) (w : Word) : State :=
  { s.take w (s.nextLatency (s.snapshot w) - 1) with
    latencies := s.latencies.tail
    issues := s.issues + 1 }

/-- A host write to CMD: issued while Idle, dropped with OVR while Busy (10_state.md R38). -/
def State.writeCmd (s : State) (w : Word) : State :=
  if s.status.busy then { s with status := s.status.overrun } else s.issue w

/-! ### Registers -/

/-- The host byte offset of a register (10_state.md R30). -/
def Reg.offset : Reg → Nat
  | .id => 0x000
  | .ctrl => 0x004
  | .status => 0x008
  | .cmd => 0x00C
  | .src => 0x010
  | .dst => 0x014
  | .len => 0x018
  | .ecaddr => 0x01C
  | .arg0 => 0x020
  | .arg1 => 0x024
  | .result0 => 0x028
  | .result1 => 0x02C
  | .crcinit => 0x030
  | .uwreg => 0x034
  | .param => 0x038

/-- All registers (10_state.md R30). -/
def allRegs : List Reg :=
  [.id, .ctrl, .status, .cmd, .src, .dst, .len, .ecaddr, .arg0, .arg1, .result0, .result1, .crcinit, .uwreg, .param]

/-- The register at a word offset, none where it is unmapped (10_state.md R30, R50). -/
def regAt (off : Nat) : Option Reg := allRegs.find? fun r => r.offset == off

/-- A register as it reads: hardwired values, and reserved bits as zero (10_state.md R31 to R50). -/
def State.readReg (s : State) : Reg → Word
  | .id => Config.idValue
  | .ctrl => s.ctrl.word
  | .status => s.status.word
  | .cmd => s.cmd
  | .src => zext32 s.src
  | .dst => zext32 s.dst
  | .len => zext32 s.len
  | .ecaddr => zext32 s.ecaddr
  | .arg0 => s.arg0
  | .arg1 => s.arg1
  | .result0 => s.result0
  | .result1 => s.result1
  | .crcinit => zext32 s.crcinit
  | .uwreg => Config.uwRegValue
  | .param => Config.paramValue

/-- A host write to a register: writable bits only, read-only registers ignore it (10_state.md R31 to R50). -/
def State.writeReg (s : State) (r : Reg) (w : Word) : State :=
  match r with
  | .id => s
  | .ctrl => { s with ctrl := Ctrl.ofWord w }
  | .status => s.writeStatus w
  | .cmd => s.writeCmd w
  | .src => { s with src := w.setWidth 10 }
  | .dst => { s with dst := w.setWidth 10 }
  | .len => { s with len := w.setWidth 11 }
  | .ecaddr => { s with ecaddr := w.setWidth 10 }
  | .arg0 => { s with arg0 := w }
  | .arg1 => { s with arg1 := w }
  | .result0 => s
  | .result1 => s
  | .crcinit => { s with crcinit := w.setWidth 16 }
  | .uwreg => s
  | .param => s

/-! ### The host bus -/

/-- The first address of the BUF window (20_memory.md R82). -/
abbrev windowBase : Nat := 0x400

/-- The word a byte address reaches: bits 1:0 are not wired (20_memory.md R81). -/
def wordAddr (a : BitVec 11) : Nat := 4 * (a.toNat / 4)

/-- The address lies in the BUF window (20_memory.md R82). -/
def inWindow (a : BitVec 11) : Bool := windowBase ≤ wordAddr a

/-- Four bytes as a word, the first in bits 7:0 (20_memory.md R83). -/
def wordOfBytes (b0 b1 b2 b3 : Byte) : Word :=
  zext32 b0 ||| (zext32 b1 <<< 8) ||| (zext32 b2 <<< 16) ||| (zext32 b3 <<< 24)

/-- A word as four bytes, bits 7:0 first (20_memory.md R83). -/
def bytesOfWord (w : Word) : List Byte :=
  [w.extractLsb' 0 8, w.extractLsb' 8 8, w.extractLsb' 16 8, w.extractLsb' 24 8]

/-- The word at `BUF[k .. k+3]` (20_memory.md R83). -/
def State.windowWord (s : State) (k : Nat) : Word :=
  wordOfBytes (s.byteAt k) (s.byteAt (k + 1)) (s.byteAt (k + 2)) (s.byteAt (k + 3))

/-- What a completed read returns (20_memory.md R82, R83, 10_state.md R50). -/
def State.busRead (s : State) (a : BitVec 11) : Word :=
  if inWindow a then s.windowWord (wordAddr a - windowBase)
  else match regAt (wordAddr a) with
    | some r => s.readReg r
    | none => 0#32

/-- What a completed write does (20_memory.md R82, R83, R86, 10_state.md R50). -/
def State.busWrite (s : State) (a : BitVec 11) (w : Word) : State :=
  if inWindow a then s.memWrite (wordAddr a - windowBase) (bytesOfWord w)
  else match regAt (wordAddr a) with
    | some r => s.writeReg r w
    | none => s

/-- The address a transaction is presented at (20_memory.md R80). -/
def BusOp.addr : BusOp → BitVec 11
  | .read a => a
  | .write a _ => a

/-- A transaction to the BUF window is held while Busy; a register transaction never is (20_memory.md R84, R85). -/
def State.stalls (s : State) (op : BusOp) : Bool := s.status.busy && inWindow op.addr

/-- One completed bus transaction (20_memory.md R80, R86). -/
def State.busOp (s : State) : BusOp → State
  | .read a => { s with rdata := s.busRead a }
  | .write a w => s.busWrite a w

end Sys2Proof.Machine
end

