-- ==== Sys2Proof/Machine/Crc.lean ====
section
/-! DEFINITION. The CRC-16 generator and its command (40_crc.md R140, R143). -/

namespace Sys2Proof.Machine

/-- One shift of the CRC register (40_crc.md R140). -/
def crcShift (c : BitVec 16) : BitVec 16 :=
  if c.getLsbD 15 then (c <<< 1) ^^^ Config.crcPoly else c <<< 1

/-- One byte through the CRC register: it enters the top, bit 7 first (40_crc.md R140). -/
def crcByte (c : BitVec 16) (x : Byte) : BitVec 16 := Nat.repeat crcShift 8 (c ^^^ (x.setWidth 16 <<< 8))

/-- `CRC16(init, X)` (40_crc.md R140). -/
def crc16 (init : BitVec 16) (X : List Byte) : BitVec 16 := X.foldl crcByte init

/-- CRC16: the CRC-16 of a BUF region (40_crc.md R143). -/
def execCrc16 (s : State) : Out :=
  let a := s.opSrc
  let n := s.opLen
  s.checked (Config.bufBytes < n) (!inRange a n)
    ((s.setResults (zext32 (crc16 s.opInit (s.memRead a n))) 0).complete)

end Sys2Proof.Machine
end

