-- ==== Sys2Proof/Machine/Framing.lean ====
section
/-! DEFINITION. Frame sizes and the unique-word detector, and the commands SYNC and TXSIZE
(43_framing.md R240 to R247). -/

namespace Sys2Proof.Machine

/-- `NCW(L) = ceil(8L / 12)`: the number of codewords (43_framing.md R242). -/
def ncw (L : Nat) : Nat := (8 * L + 11) / 12

/-- `RLAST(L)`: the data bits in the last chunk (43_framing.md R242). -/
def rlast (L : Nat) : Nat := 8 * L - 12 * (ncw L - 1)

/-- `r_c`: the data bits in chunk c (43_framing.md R242). -/
def chunkSize (L c : Nat) : Nat := if c < ncw L - 1 then 12 else rlast L

/-- `TXSIZE(L) = ceil((16 + 8L + 11·NCW(L)) / 8)` (43_framing.md R243). -/
def txSize (L : Nat) : Nat := (16 + 8 * L + 11 * ncw L + 7) / 8

/-- `PAD(L)`: the zero bits at the end of the body (43_framing.md R243). -/
def padBits (L : Nat) : Nat := 8 * txSize L - 16 - 8 * L - 11 * ncw L

/-- `UWMATCH(b0, b1)`: no bit error is tolerated (43_framing.md R245). -/
def uwMatch (b0 b1 : Byte) : Bool := [b0, b1] == Config.uw

/-- SYNC: the unique-word check at one BUF address; no match is no error (43_framing.md R246). -/
def execSync (s : State) : Out :=
  let a := s.opSrc
  let b0 := s.byteAt a
  let b1 := s.byteAt (a + 1)
  s.checked false (!inRange a 2)
    (((s.setSync (uwMatch b0 b1)).setResults ((zext32 b0 <<< 8) ||| zext32 b1) 0).complete)

/-- TXSIZE: the frame size of a payload length (43_framing.md R247). -/
def execTxsize (s : State) : Out :=
  let L := s.opLen
  s.checked (L == 0 || Config.lmax < L) false
    ((s.setResults (BitVec.ofNat 32 (txSize L))
      (BitVec.ofNat 32 (ncw L) ||| (BitVec.ofNat 32 (rlast L) <<< 8) ||| (BitVec.ofNat 32 (padBits L) <<< 16))).complete)

end Sys2Proof.Machine
end

