-- ==== Sys2Proof/Machine/Bits.lean ====
section
/-! DEFINITION. The two bit orders of a byte string, and the packing of bits into bytes (00_scope.md R9, R10, R11; the unit that
uses each order is in 20_memory.md R90). -/

namespace Sys2Proof.Machine

/-- `SBIT(X, k)`: stream order, MSB first (00_scope.md R10). -/
def sbit (X : List Byte) (k : Nat) : Bool := (X.getD (k / 8) 0).getLsbD (7 - k % 8)

/-- `IBIT(X, k)`: index order, LSB first (00_scope.md R10). -/
def ibit (X : List Byte) (k : Nat) : Bool := (X.getD (k / 8) 0).getLsbD (k % 8)

/-- A byte with bit `j` replaced. -/
def setBit (y : Byte) (j : Nat) (b : Bool) : Byte :=
  if b then y ||| (1#8 <<< j) else y &&& ~~~(1#8 <<< j)

/-- The assignment `IBIT(Y, k) <- b` (42_interleave_scramble.md R201). -/
def setIbit (Y : List Byte) (k : Nat) (b : Bool) : List Byte :=
  Y.modify (k / 8) (fun y => setBit y (k % 8) b)

/-- `bytes(n)`: n zero bytes (00_scope.md R9). -/
def zeroBytes (n : Nat) : List Byte := List.replicate n 0

/-- All bits of a byte string in stream order (00_scope.md R10). -/
def streamBits (X : List Byte) : List Bool :=
  X.flatMap fun x => (List.range 8).map fun j => x.getLsbD (7 - j)

/-- All bits of a byte string in index order (00_scope.md R10). -/
def indexBits (X : List Byte) : List Bool :=
  X.flatMap fun x => (List.range 8).map fun j => x.getLsbD j

/-- The byte whose bits, bit 7 first, are the first eight of a list; a missing bit is zero. -/
def byteMsb (bs : List Bool) : Byte := BitVec.ofFnLE fun j : Fin 8 => bs.getD (7 - j.val) false

/-- The byte whose bits, bit 0 first, are the first eight of a list; a missing bit is zero. -/
def byteLsb (bs : List Bool) : Byte := BitVec.ofFnLE fun j : Fin 8 => bs.getD j.val false

/-- `n` bytes from a stream of bits, bit 7 first. -/
def packMsbN : Nat → List Bool → List Byte
  | 0, _ => []
  | n + 1, bs => byteMsb bs :: packMsbN n (bs.drop 8)

/-- `n` bytes from a sequence of bits, bit 0 first. -/
def packLsbN : Nat → List Bool → List Byte
  | 0, _ => []
  | n + 1, bs => byteLsb bs :: packLsbN n (bs.drop 8)

/-- `PACK_MSB`: the byte string of `ceil(m/8)` bytes whose stream bits are `bs`, then zeros (00_scope.md R10). -/
def packMsb (bs : List Bool) : List Byte := packMsbN ((bs.length + 7) / 8) bs

/-- The r-bit value whose bits are stream bits `start .. start+r-1`, the first the most significant (44_packet.md R280, R285). -/
def streamField (X : List Byte) (start r : Nat) : Nat :=
  (List.range r).foldl (fun v k => 2 * v + (sbit X (start + k)).toNat) 0

/-- The bits `v[r-1], …, v[0]` (44_packet.md R283, R285). -/
def fieldBits (v : Nat) (r : Nat) : List Bool := (List.range r).map fun k => v.testBit (r - 1 - k)

/-- `popcount` (00_scope.md R11). -/
def popcount {w : Nat} (v : BitVec w) : Nat := (List.range w).countP fun i => v.getLsbD i

end Sys2Proof.Machine
end

