-- ==== Sys2Proof/Machine/Golay.lean ====
section
/-! DEFINITION. The (23,12) Golay code: remainder, encoder, syndrome table and decoder, and its two commands
(41_fec.md R160 to R169). -/

namespace Sys2Proof.Machine

/-- One step of the division: cancel the term x^k if it is present (41_fec.md R160). -/
def golayReduce (p : BitVec 23) (k : Nat) : BitVec 23 :=
  if p.getLsbD k then p ^^^ (Config.golayG <<< (k - 11)) else p

/-- `REM(p)`: the remainder of p(x) divided by g(x), k from 22 down to 11 (41_fec.md R160). -/
def golayRem (p : BitVec 23) : BitVec 11 :=
  ([22, 21, 20, 19, 18, 17, 16, 15, 14, 13, 12, 11].foldl golayReduce p).setWidth 11

/-- A data word in the data field, bits 22:11 of a codeword (41_fec.md R162). -/
def dataField (d : BitVec 12) : BitVec 23 := d.setWidth 23 <<< 11

/-- `PAR(d)` (41_fec.md R162). -/
def golayPar (d : BitVec 12) : BitVec 11 := golayRem (dataField d)

/-- `GolayEnc(d)` (41_fec.md R162). -/
def golayEnc (d : BitVec 12) : BitVec 23 := dataField d ||| (golayPar d).setWidth 23

/-- The error pattern of one bit. -/
def errorBit (i : Nat) : BitVec 23 := 1#23 <<< i

/-- The 1 + 23 + 253 + 1771 error patterns of weight at most 3, by weight (41_fec.md R164). -/
def errorPatterns : List (BitVec 23) :=
  [0#23]
    ++ (List.range 23).map errorBit
    ++ (List.range 23).flatMap (fun i => (List.range i).map fun j => errorBit i ||| errorBit j)
    ++ (List.range 23).flatMap (fun i => (List.range i).flatMap fun j =>
        (List.range j).map fun k => errorBit i ||| errorBit j ||| errorBit k)

/-- The syndrome table DT: the error pattern of weight at most 3 with this syndrome (41_fec.md R164, 10_state.md R52). There is
exactly one, so the default is never taken. -/
def golayDT (syn : BitVec 11) : BitVec 23 := (errorPatterns.find? fun e => golayRem e == syn).getD 0

/-- The error code of an uncorrectable codeword (41_fec.md R166). -/
abbrev codeUncorrectable : Nat := 0xF

/-- What decoding one word returns: corrected data, correction pattern, error code (41_fec.md R165). -/
structure GolayResult where
  d : BitVec 12
  e : BitVec 23
  code : Nat
  deriving DecidableEq, Repr

/-- `GolayDec(cw, kz)` (41_fec.md R165). -/
def golayDec (cw : BitVec 23) (kz : BitVec 12) : GolayResult :=
  let e := golayDT (golayRem cw)
  let d := (cw ^^^ e).extractLsb' 11 12
  { d := d, e := e, code := if d &&& kz ≠ 0#12 then codeUncorrectable else popcount e }

/-- GOLAY_ENC: one data word; no check, BUF untouched (41_fec.md R168). -/
def execGolayEnc (s : State) : Out :=
  let cw := golayEnc s.opData
  .next ((s.setResults (zext32 cw) (zext32 (cw.extractLsb' 0 11))).complete)

/-- GOLAY_DEC: one received word; no check, BUF untouched (41_fec.md R169). -/
def execGolayDec (s : State) : Out :=
  let r := golayDec s.opCodeword s.opKnownZero
  .next (((s.setResults (zext32 r.d) ((zext32 r.e <<< 8) ||| BitVec.ofNat 32 r.code)).setUncorr
    (r.code == codeUncorrectable)).complete)

end Sys2Proof.Machine
end

