-- ==== Sys2Proof/Machine/Interleave.lean ====
section
/-! DEFINITION. The interleaver, the deinterleaver and the scrambler, and their commands
(42_interleave_scramble.md R200 to R209). -/

namespace Sys2Proof.Machine

/-- Primality by trial division. -/
def isPrime (p : Nat) : Bool := 2 ≤ p && (List.range' 2 (p - 2)).all fun d => p % d != 0

/-- The largest prime below the argument; 0 where there is none. -/
def largestPrimeBelow : Nat → Nat
  | 0 => 0
  | n + 1 => if isPrime n then n else largestPrimeBelow n

/-- `IL_B(N)`: the largest prime p with p < N (42_interleave_scramble.md R200). Confirmed by an example for N = 344 only
(UNVERIFIED for the others, unsafe: notes/assumptions/10.md). -/
def ilB (N : Nat) : Nat := largestPrimeBelow N

/-- `IL(X)`: bit i of the input moves to position (b·i) mod N (42_interleave_scramble.md R201). -/
def interleaveBytes (X : List Byte) : List Byte :=
  let N := 8 * X.length
  let b := ilB N
  (List.range N).foldl (fun Y i => setIbit Y (b * i % N) (ibit X i)) (zeroBytes X.length)

/-- `ILINV(X)`: bit i of the output comes from position (b·i) mod N (42_interleave_scramble.md R202). -/
def deinterleaveBytes (X : List Byte) : List Byte :=
  let N := 8 * X.length
  let b := ilB N
  packLsbN X.length ((List.range N).map fun i => ibit X (b * i % N))

/-- The output bit of the scrambler's LFSR, s[0] ^ s[1] (42_interleave_scramble.md R204). -/
def lfsrOut (s : BitVec 15) : Bool := s.getLsbD 0 ^^ s.getLsbD 1

/-- One step of the LFSR: shift right, the output into bit 14 (42_interleave_scramble.md R204). -/
def lfsrNext (s : BitVec 15) : BitVec 15 := (s >>> 1) ||| ((if lfsrOut s then 1#15 else 0#15) <<< 14)

/-- Bits XORed with the outputs of the LFSR from state s, and its final state (42_interleave_scramble.md R205). -/
def scrambleBits : BitVec 15 → List Bool → List Bool × BitVec 15
  | s, [] => ([], s)
  | s, b :: bs =>
    let r := scrambleBits (lfsrNext s) bs
    ((b ^^ lfsrOut s) :: r.1, r.2)

/-- `SCR(X)`, reseeded: the scrambled bytes and the final LFSR state (42_interleave_scramble.md R205). -/
def scrambleBytes (X : List Byte) : List Byte × BitVec 15 :=
  let r := scrambleBits Config.scrSeed (indexBits X)
  (packLsbN X.length r.1, r.2)

/-- The shape INTERLEAVE, DEINTERLEAVE and SCRAMBLE share: n bytes from SRC through a unit to DST, RESULT0 as the unit says,
RESULT1 zero (42_interleave_scramble.md R207 to R209). -/
def State.transform (s : State) (unit : List Byte → List Byte × Word) : Out :=
  let a := s.opSrc
  let t := s.opDst
  let n := s.opLen
  let r := unit (s.memRead a n)
  s.checked (n == 0 || Config.bufBytes < n) (!(inRange a n && inRange t n))
    (((s.memWrite t r.1).setResults r.2 0).complete)

/-- INTERLEAVE (42_interleave_scramble.md R207). -/
def execInterleave (s : State) : Out :=
  s.transform fun X => (interleaveBytes X, BitVec.ofNat 32 (ilB (8 * X.length)))

/-- DEINTERLEAVE (42_interleave_scramble.md R208). -/
def execDeinterleave (s : State) : Out :=
  s.transform fun X => (deinterleaveBytes X, BitVec.ofNat 32 (ilB (8 * X.length)))

/-- SCRAMBLE, which is also DESCRAMBLE (42_interleave_scramble.md R209). -/
def execScramble (s : State) : Out :=
  s.transform fun X => ((scrambleBytes X).1, zext32 (scrambleBytes X).2)

end Sys2Proof.Machine
end

