-- ==== Sys2Proof/Machine/Packet.lean ====
section
/-! DEFINITION. The packet orchestrator: its datapaths, and the commands NOP, ENCODE and DECODE
(44_packet.md R270 to R287). -/

namespace Sys2Proof.Machine

/-- `DATA(P, c)` for a chunk of r bits: the stream bits 12c .. 12c+r-1, moved up by one where the chunk is partial
(44_packet.md R280). UNVERIFIED for r = 4, unsafe: notes/assumptions/11.md. -/
def dataWord (P : List Byte) (c r : Nat) : BitVec 12 :=
  let v := streamField P (12 * c) r
  BitVec.ofNat 12 (if r = 12 then v else 2 * v)

/-- `CRCOF(init, P)`: the checksum of all but the last two bytes (44_packet.md R281). -/
def crcOf (init : BitVec 16) (P : List Byte) : BitVec 16 := crc16 init (P.take (P.length - 2))

/-- A 16-bit value as two bytes, the least significant first (20_memory.md R89). -/
def leBytes (v : BitVec 16) : List Byte := [v.extractLsb' 0 8, v.extractLsb' 8 8]

/-- `WITHCRC(init, P)` (44_packet.md R281). -/
def withCrc (init : BitVec 16) (P : List Byte) : List Byte := P.take (P.length - 2) ++ leBytes (crcOf init P)

/-- `KZ(r)`: the data-word bits a chunk of r bits leaves zero (44_packet.md R282). -/
def knownZero (r : Nat) : BitVec 12 := if r = 12 then 0 else ~~~(((1#12 <<< r) - 1#12) <<< 1)

/-- `Q`: the parity of every chunk, bit 10 first (44_packet.md R283). -/
def parityStream (P : List Byte) : List Bool :=
  (List.range (ncw P.length)).flatMap fun c => fieldBits (golayPar (dataWord P c (chunkSize P.length c))).toNat 11

/-- `BuildBody(P)`: payload, parity stream, zero padding (44_packet.md R283, 43_framing.md R244). -/
def buildBody (P : List Byte) : List Byte :=
  packMsb (streamBits P ++ parityStream P ++ List.replicate (padBits P.length) false)

/-- `BuildFrame(P, IB, SB)`: interleave, then scramble, each unless bypassed; then the unique word in front
(44_packet.md R284). -/
def buildFrame (P : List Byte) (ib sb : Bool) : List Byte :=
  let b0 := buildBody P
  let b1 := if ib then b0 else interleaveBytes b0
  let b2 := if sb then b1 else (scrambleBytes b1).1
  Config.uw ++ b2

/-- The received body, descrambled first and then deinterleaved, each unless bypassed (44_packet.md R285). -/
def receiveBody (X0 : List Byte) (ib sb : Bool) : List Byte :=
  let x1 := if sb then X0 else (scrambleBytes X0).1
  if ib then x1 else deinterleaveBytes x1

/-- The decoding of codeword c of a received body of payload length L (44_packet.md R285). -/
def decodeChunk (X2 : List Byte) (L c : Nat) : GolayResult :=
  let r := chunkSize L c
  let d := dataWord (X2.take L) c r
  let p := streamField X2 (8 * L + 11 * c) 11
  golayDec (dataField d ||| BitVec.ofNat 23 p) (knownZero r)

/-- The r payload bits of a corrected data word (44_packet.md R285). -/
def chunkValue (dd : BitVec 12) (r : Nat) : Nat :=
  if r = 12 then dd.toNat else ((dd >>> 1) &&& ((1#12 <<< r) - 1#12)).toNat

/-- What decoding a frame returns: payload, one error code per codeword, unique-word match (44_packet.md R285). -/
structure DecodedFrame where
  out : List Byte
  codes : List Nat
  sync : Bool
  deriving DecidableEq, Repr

/-- `DecodeFrame(F, L, IB, SB)` (44_packet.md R285). -/
def decodeFrame (F : List Byte) (L : Nat) (ib sb : Bool) : DecodedFrame :=
  let X2 := receiveBody (F.drop 2) ib sb
  let rs := (List.range (ncw L)).map fun c => (c, decodeChunk X2 L c)
  { out := packMsb (rs.flatMap fun cr => fieldBits (chunkValue cr.2.d (chunkSize L cr.1)) (chunkSize L cr.1))
    codes := rs.map fun cr => cr.2.code
    sync := uwMatch (F.getD 0 0) (F.getD 1 0) }

/-- NOP: only completion (44_packet.md R270). -/
def execNop (s : State) : Out := .next s.complete

/-- ENCODE: a transmit frame from a payload (44_packet.md R286). -/
def execEncode (ci ib sb : Bool) (s : State) : Out :=
  let a := s.opSrc
  let t := s.opDst
  let L := s.opLen
  let P := s.memRead a L
  let P' := if ci then withCrc s.opInit P else P
  s.checked (L == 0 || Config.lmax < L || (ci && L < 3)) (!(inRange a L && inRange t (txSize L)))
    (((s.memWrite t (buildFrame P' ib sb)).setResults (BitVec.ofNat 32 (txSize L)) (zext32 (crcOf s.opInit P))).complete)

/-- The length DECODE does not accept: without ANYLEN outside SIZES, with it outside 3 .. LMAX (44_packet.md R287). -/
def decodeBadLength (anylen : Bool) (L : Nat) : Bool :=
  if anylen then L < 3 || Config.lmax < L else !Config.sizes.contains L

/-- DECODE: a payload from a received frame. The payload is written first, the error codes second (44_packet.md R287). -/
def execDecode (ib sb : Bool) (s : State) : Out :=
  let a := s.opSrc
  let t := s.opDst
  let L := s.opLen
  let e := s.opEc
  let T := txSize L
  let K := ncw L
  let r := decodeFrame (s.memRead a T) L ib sb
  let crcCalc := crcOf s.opInit r.out
  let crcRx := (r.out.getD (L - 2) 0).setWidth 16 ||| ((r.out.getD (L - 1) 0).setWidth 16 <<< 8)
  let esum := (r.codes.filter (· != codeUncorrectable)).sum
  let nunc := r.codes.countP (· == codeUncorrectable)
  let wrote := (s.memWrite t r.out).memWrite e (r.codes.map (BitVec.ofNat 8))
  let flagged := ((wrote.setSync r.sync).setCrcOk (crcCalc == crcRx)).setUncorr (0 < nunc)
  s.checked (decodeBadLength s.opAnylen L) (!(inRange a T && inRange t L && inRange e K))
    ((flagged.setResults ((zext32 crcRx <<< 16) ||| zext32 crcCalc)
      ((BitVec.ofNat 32 esum <<< 16) ||| (BitVec.ofNat 32 nunc <<< 8) ||| BitVec.ofNat 32 K)).complete)

end Sys2Proof.Machine
end

