-- ==== Sys2Proof/Machine/Dispatch.lean ====
section
/-! DEFINITION. One arm per command: its meaning on the state, the engine step of that command (10_state.md R45). -/

namespace Sys2Proof.Machine

def exec (i : Instr) (s : State) : Host.Outcome State Fault Refusal :=
  match i with
  | .nop => Sys2Proof.Machine.execNop s
  | .crc16 => Sys2Proof.Machine.execCrc16 s
  | .golayEnc => Sys2Proof.Machine.execGolayEnc s
  | .golayDec => Sys2Proof.Machine.execGolayDec s
  | .interleave => Sys2Proof.Machine.execInterleave s
  | .deinterleave => Sys2Proof.Machine.execDeinterleave s
  | .scramble => Sys2Proof.Machine.execScramble s
  | .sync => Sys2Proof.Machine.execSync s
  | .txsize => Sys2Proof.Machine.execTxsize s
  | .encode ci ib sb => Sys2Proof.Machine.execEncode ci ib sb s
  | .decode ib sb => Sys2Proof.Machine.execDecode ib sb s

end Sys2Proof.Machine
end

