-- ==== Sys2Proof/WellFormed.lean ====
section
/-! DEFINITION. Well-formedness of a command, as the legality rule states it on the fields of the command word
(30_encoding.md R110, R117). `Instr` holds legal commands only, so every `Instr` is well-formed
(`Instr.wellFormed_all` in Laws/Decode.lean); the checks bite on `CmdFields`, the fields an assembler is given (R122). -/

namespace Sys2Proof

/-- The five fields of the command word (30_encoding.md R110). -/
structure CmdFields where
  /-- Bits 7:0 (R111). -/
  op : BitVec 8
  /-- Bit 8 (R112). -/
  ci : Bool := false
  /-- Bit 9 (R113). -/
  ib : Bool := false
  /-- Bit 10 (R114). -/
  sb : Bool := false
  /-- Bits 31:11 (R115). -/
  rsv : BitVec 21 := 0
  deriving DecidableEq, Repr

/-- OP 0x00..0x0A is defined (30_encoding.md R111). -/
def CmdFields.opDefined (f : CmdFields) : Bool := f.op ≤ 0x0A#8

/-- CI only with ENCODE (30_encoding.md R112). -/
def CmdFields.ciAllowed (f : CmdFields) : Bool := !f.ci || f.op == 0x09#8

/-- IB only with ENCODE and DECODE (30_encoding.md R113). -/
def CmdFields.ibAllowed (f : CmdFields) : Bool := !f.ib || f.op == 0x09#8 || f.op == 0x0A#8

/-- SB only with ENCODE and DECODE (30_encoding.md R114). -/
def CmdFields.sbAllowed (f : CmdFields) : Bool := !f.sb || f.op == 0x09#8 || f.op == 0x0A#8

/-- RSV must be zero (30_encoding.md R115). -/
def CmdFields.rsvZero (f : CmdFields) : Bool := f.rsv == 0#21

/-- The legality rule on the fields (30_encoding.md R117). -/
def CmdFields.wellFormed (f : CmdFields) : Bool :=
  f.rsvZero && f.opDefined && f.ciAllowed && f.ibAllowed && f.sbAllowed

/-- The fields of each row's command word (30_encoding.md R116). -/
def Instr.fields : Instr → CmdFields
  | .nop => { op := 0x00 }
  | .crc16 => { op := 0x01 }
  | .golayEnc => { op := 0x02 }
  | .golayDec => { op := 0x03 }
  | .interleave => { op := 0x04 }
  | .deinterleave => { op := 0x05 }
  | .scramble => { op := 0x06 }
  | .sync => { op := 0x07 }
  | .txsize => { op := 0x08 }
  | .encode ci ib sb => { op := 0x09, ci := ci, ib := ib, sb := sb }
  | .decode ib sb => { op := 0x0A, ib := ib, sb := sb }

/-- A command is well-formed when its fields are legal (30_encoding.md R117). -/
def Instr.wellFormed (i : Instr) : Bool := i.fields.wellFormed

end Sys2Proof
end

