-- ==== Sys2Proof/Decode.lean ====
section
/-! DEFINITION. Decoding and encoding of command words (30_encoding.md R110 to R122), and the reading of a word of
spec/opcode_table.json. -/

namespace Sys2Proof

/-- OP, bits 7:0 (30_encoding.md R110). -/
def opField (w : Word) : BitVec 8 := w.extractLsb' 0 8

/-- CI, bit 8 (30_encoding.md R112). -/
def ciField (w : Word) : Bool := w.getLsbD 8

/-- IB, bit 9 (30_encoding.md R113). -/
def ibField (w : Word) : Bool := w.getLsbD 9

/-- SB, bit 10 (30_encoding.md R114). -/
def sbField (w : Word) : Bool := w.getLsbD 10

/-- RSV, bits 31:11 (30_encoding.md R115). -/
def rsvField (w : Word) : BitVec 21 := w.extractLsb' 11 21

/-- The fields of any word (30_encoding.md R110). -/
def wordFields (w : Word) : CmdFields :=
  { op := opField w, ci := ciField w, ib := ibField w, sb := sbField w, rsv := rsvField w }

/-- `legal` (30_encoding.md R117). -/
def legal (w : Word) : Bool := (wordFields w).wellFormed

/-- Why a word is illegal (30_encoding.md R124: reserved bits, a reserved OP, a flag its opcode does not take). All illegal
words behave identically (60_exceptions.md R302). -/
inductive Illegal where
  /-- A bit of 31:11 is set (R115). -/
  | reservedBits
  /-- OP is 0x0B..0xFF (R111). -/
  | reservedOpcode
  /-- CI, IB or SB on an opcode that does not take it (R112 to R114). -/
  | flagNotAllowed
  deriving DecidableEq, Repr

/-- What a word decodes to: a row of R116 with its flags, or illegal (30_encoding.md R120). -/
inductive Decoded where
  | legal (i : Instr)
  | illegal (why : Illegal)
  deriving DecidableEq, Repr

/-- The instruction, if the word is legal. -/
def Decoded.instr? : Decoded → Option Instr
  | .legal i => some i
  | .illegal _ => none

/-- A row that takes no flags (30_encoding.md R116). -/
def plainRow (ci ib sb : Bool) (i : Instr) : Decoded :=
  if ci || ib || sb then .illegal .flagNotAllowed else .legal i

/-- The decoder: total on all 32-bit words (30_encoding.md R116, R117, R120). -/
def decode (w : Word) : Decoded :=
  if rsvField w ≠ 0#21 then .illegal .reservedBits
  else
    let ci := ciField w
    let ib := ibField w
    let sb := sbField w
    match (opField w).toNat with
    | 0x00 => plainRow ci ib sb .nop
    | 0x01 => plainRow ci ib sb .crc16
    | 0x02 => plainRow ci ib sb .golayEnc
    | 0x03 => plainRow ci ib sb .golayDec
    | 0x04 => plainRow ci ib sb .interleave
    | 0x05 => plainRow ci ib sb .deinterleave
    | 0x06 => plainRow ci ib sb .scramble
    | 0x07 => plainRow ci ib sb .sync
    | 0x08 => plainRow ci ib sb .txsize
    | 0x09 => .legal (.encode ci ib sb)
    | 0x0A => if ci then .illegal .flagNotAllowed else .legal (.decode ib sb)
    | _ => .illegal .reservedOpcode

/-- The command word of its fields: OP | CI<<8 | IB<<9 | SB<<10, with RSV above (30_encoding.md R110, R122). -/
def CmdFields.word (f : CmdFields) : Word :=
  zext32 f.op ||| (bitWord f.ci <<< 8) ||| (bitWord f.ib <<< 9) ||| (bitWord f.sb <<< 10) ||| (zext32 f.rsv <<< 11)

/-- The encoder (30_encoding.md R116, R122). -/
def encode (i : Instr) : Word := i.fields.word

/-- The assembler of 30_encoding.md R122: it refuses the fields that R117 makes illegal. -/
def assemble (f : CmdFields) : Option Word := if f.wellFormed then some f.word else none

/-- The instruction the decoder reads from a word of spec/opcode_table.json: every row has 32 bits, and the command is that one
32-bit word (30_encoding.md R110), so there is no byte order to lay it out in. -/
def decodeTableWord (nbits w : Nat) : Option Instr :=
  if nbits ≤ 32 then (decode (BitVec.ofNat 32 (w % 2 ^ nbits))).instr? else none

end Sys2Proof
end

