-- ==== Sys2Proof/Machine/HostProgram.lean ====
section
/-! DEFINITION. The host agent: the meaning of the lines of a host program, the pseudo-commands, and one move of the host
(00_scope.md R6, 20_memory.md R80 to R86, 30_encoding.md R121 to R123). -/

namespace Sys2Proof.Machine

/-- The host byte address of a register (10_state.md R30). -/
def Reg.addr (r : Reg) : BitVec 11 := BitVec.ofNat 11 r.offset

/-- The bus transaction a line produces; a branch produces none (30_encoding.md R121). -/
def HostLine.busOp? : HostLine → Option BusOp
  | .wr r v => some (.write r.addr v)
  | .wrw a v => some (.write a v)
  | .rd r => some (.read r.addr)
  | .rdw a => some (.read a)
  | .branch _ _ => none
  | .go i => some (.write (Reg.addr .cmd) (encode i))

/-- A condition on the last value read (30_encoding.md R121). -/
def Cond.holds (c : Cond) (v : Word) : Bool :=
  match c with
  | .z => v == 0#32
  | .nz => v != 0#32
  | .bs n => v.getLsbD n
  | .bc n => !v.getLsbD n

/-- The line the host stands at, if its program has one there. -/
def State.hostLine (s : State) : Option HostLine := s.prog[s.pos]?

/-- The transaction the host presents: we, addr and wdata (20_memory.md R80). -/
def State.presented (s : State) : Option BusOp := s.hostLine.bind HostLine.busOp?

/-- The place after a line that is not a transaction: the target of a branch taken, else the next line (30_encoding.md R121). -/
def HostLine.nextPos (l : HostLine) (v : Word) (pos : Nat) : Nat :=
  match l with
  | .branch c t => if c.holds v then t else pos + 1
  | _ => pos + 1

/-- One move of the host: its transaction completes if it is not held, a branch moves the host only, and past the end of its
program the host does nothing (20_memory.md R80, R85; notes/assumptions/6.md). -/
def State.hostMove (s : State) : State :=
  match s.hostLine with
  | none => s
  | some l =>
    match l.busOp? with
    | none => { s with pos := l.nextPos s.rdata s.pos }
    | some op => if s.stalls op then s else { s.busOp op with pos := s.pos + 1 }

/-! ### Pseudo-commands (30_encoding.md R123) -/

/-- WAIT, standing from line `p` on: poll until BUSY = 0. -/
def pseudoWait (p : Nat) : List HostLine := [.rd .status, .branch (.bs 0) p]

/-- A GO and its WAIT, after the lines `ls` that stand from line `p` on. -/
def goWait (p : Nat) (ls : List HostLine) (i : Instr) : List HostLine :=
  let qs := ls ++ [.go i]
  qs ++ pseudoWait (p + qs.length)

/-- DESCRAMBLE: the same command as SCRAMBLE. -/
def pseudoDescramble : Instr := .scramble

/-- DEFRAME: the same command as SYNC. -/
def pseudoDeframe : Instr := .sync

/-- The writes of WRBUF, one word for each four bytes; a missing byte is 0x00. -/
def wrbufLines : Nat → Nat → List Byte → List HostLine
  | 0, _, _ => []
  | k + 1, a, bs =>
    .wrw (BitVec.ofNat 11 (windowBase + a)) (wordOfBytes (bs.getD 0 0) (bs.getD 1 0) (bs.getD 2 0) (bs.getD 3 0))
      :: wrbufLines k (a + 4) (bs.drop 4)

/-- WRBUF a, b0 b1 …, for a ≡ 0 mod 4. -/
def pseudoWrbuf (a : Nat) (bs : List Byte) : List HostLine := wrbufLines ((bs.length + 3) / 4) a bs

/-- CRC a, n. -/
def pseudoCrc (p : Nat) (a n : Word) : List HostLine := goWait p [.wr .src a, .wr .len n] .crc16

/-- GENC d. -/
def pseudoGenc (p : Nat) (d : Word) : List HostLine := goWait p [.wr .arg0 d] .golayEnc

/-- GDEC cw, kz. -/
def pseudoGdec (p : Nat) (cw kz : Word) : List HostLine := goWait p [.wr .arg0 cw, .wr .arg1 kz] .golayDec

/-- The three operand writes that ILV, DILV and SCR share. -/
def regionLines (s d n : Word) : List HostLine := [.wr .src s, .wr .dst d, .wr .len n]

/-- ILV s, d, n. -/
def pseudoIlv (p : Nat) (s d n : Word) : List HostLine := goWait p (regionLines s d n) .interleave

/-- DILV s, d, n. -/
def pseudoDilv (p : Nat) (s d n : Word) : List HostLine := goWait p (regionLines s d n) .deinterleave

/-- SCR s, d, n. -/
def pseudoScr (p : Nat) (s d n : Word) : List HostLine := goWait p (regionLines s d n) .scramble

/-- SYNCAT s. -/
def pseudoSyncat (p : Nat) (s : Word) : List HostLine := goWait p [.wr .src s] .sync

/-- TXS L. -/
def pseudoTxs (p : Nat) (l : Word) : List HostLine := goWait p [.wr .len l] .txsize

/-- ENC s, d, L[, flags]. -/
def pseudoEnc (p : Nat) (s d l : Word) (ci ib sb : Bool) : List HostLine :=
  goWait p (regionLines s d l) (.encode ci ib sb)

/-- DEC s, d, L, e[, flags]. -/
def pseudoDec (p : Nat) (s d l e : Word) (ib sb : Bool) : List HostLine :=
  goWait p (regionLines s d l ++ [.wr .ecaddr e]) (.decode ib sb)

end Sys2Proof.Machine
end

