-- ==== Sys2Proof/Machine/Clock.lean ====
section
/-! DEFINITION. What one step is made of: the sampling of rst_n, reset, the pins sel and ready, the engine's move and
the choice of who moves (10_state.md R45, 20_memory.md R80, R92, 60_exceptions.md R302, 70_reset_and_hazards.md R340, R341, R349). -/

namespace Sys2Proof.Machine

/-- The level rst_n is sampled at in this step: high unless the environment drives it low (notes/assumptions/8.md). -/
def State.rstLevel (s : State) : Bool := s.rstIn.headD true

/-- The block is out of reset in this step: rst_n is sampled high, and this is not the edge that resets it
(70_reset_and_hazards.md R340). -/
def State.outOfReset (s : State) : Bool := s.rstLevel && s.rstn

/-- The rest of the levels to come. -/
def State.sampled (s : State) : State := { s with rstIn := s.rstIn.tail }

/-- rst_n sampled low: no transaction completes and no engine step is taken (70_reset_and_hazards.md R340, R341). The
registers keep their values: DEDUCED (notes/assumptions/22.md). -/
def State.heldInReset (s : State) : State := { s with rstn := false }

/-- The first edge with rst_n = 1: every register takes its reset value, the engine is Idle, BUF is unspecified anew
(70_reset_and_hazards.md R340 to R342; notes/assumptions/21.md). The host and the inputs to come are outside the block and stay. -/
def State.takeReset (s : State) : State :=
  { State.reset with
    rdata := s.rdata
    prog := s.prog
    pos := s.pos
    rstIn := s.rstIn
    latencies := s.latencies
    issues := s.issues
    resets := s.resets + 1 }

/-- The engine moves in this step: Busy, and no step left to the host (10_state.md R45, 70_reset_and_hazards.md R349). -/
def State.engineTurn (s : State) : Bool := s.status.busy && s.wait == 0

/-- `sel`: the host presents a transaction. An engine step is an event with no bus cycle in it, so none is selected there
(20_memory.md R80, R92; notes/assumptions/18.md). -/
def State.sel (s : State) : Bool := s.presented.isSome && !(s.outOfReset && s.engineTurn)

/-- `ready` for a presented transaction: low while rst_n is low and on the reset edge, and for a BUF-window transaction while
Busy (20_memory.md R80, R84, R85, 70_reset_and_hazards.md R340). -/
def State.ready (s : State) (op : BusOp) : Bool := s.outOfReset && !s.stalls op

/-- The engine step: the whole latched command, or ILLEGAL_CMD where its word is illegal (10_state.md R45,
60_exceptions.md R302). -/
def State.engineMove (s : State) : Out :=
  match decode s.lat.cmd with
  | .legal i => exec i s
  | .illegal _ => .next (s.raise errIllegalCmd)

/-- One of the steps left to the host passes (70_reset_and_hazards.md R349). -/
def State.tick (s : State) : State := { s with wait := s.wait - 1 }

/-- A command word issued by the host at this instant, to be executed by the very next step (10_state.md R38). -/
def State.placeCommand (s : State) (w : Word) : State := { s.take w 0 with rstn := true, rstIn := [] }

end Sys2Proof.Machine
end

