-- ==== Sys2Proof/Machine/Step.lean ====
section
/-! DEFINITION. One step of the machine: one atomic event of the total order of 20_memory.md R92. -/

namespace Sys2Proof.Machine

/-- One step. rst_n low holds the block; its first high level resets it; else the engine moves when it is its turn, and the
host otherwise (20_memory.md R92, 70_reset_and_hazards.md R340, R349). -/
def step (s : State) : Host.Outcome State Fault Refusal :=
  if !s.rstLevel then .next s.sampled.heldInReset
  else if !s.rstn then .next s.sampled.takeReset
  else if s.engineTurn then s.sampled.engineMove
  else .next s.sampled.tick.hostMove

/-- s with the command word w (its low nbits bits, the rest zero) issued, so that the next step executes it: what the host's
write to CMD does, with the engine's turn at once (10_state.md R38, R46; notes/assumptions/5.md). -/
def State.withFetchWord (s : State) (nbits w : Nat) : State := s.placeCommand (BitVec.ofNat 32 (w % 2 ^ nbits))

end Sys2Proof.Machine
end

