-- ==== Sys2Proof/Safety.lean ====
section
/-! DEFINITION. The terms the statements use: the invariant of the machine, what a command keeps, the table of checks, and the
errors of a received body. -/

namespace Sys2Proof.Machine

/-- The machine answers a next state: it neither faults nor refuses (60_exceptions.md R311). -/
def Runs (o : Out) : Prop := ∃ t, o = .next t

/-- The invariant of the machine: BUF is in canonical form, ERR is one of the codes 0 to 3 (60_exceptions.md R301), and while
Busy neither DONE nor ERR is set and CMD still holds the command in progress (10_state.md R38). -/
structure Inv (s : State) : Prop where
  bufWf : Memory.wf s.buf = true
  errCode : s.status.err ≤ 3
  busyDone : s.status.busy = true → s.status.done = false
  busyErr : s.status.busy = true → s.status.err = 0
  busyCmd : s.status.busy = true → s.lat.cmd = s.cmd

/-- rst_n is high and was high (70_reset_and_hazards.md R340). -/
def OutOfReset (s : State) : Prop := s.rstLevel = true ∧ s.rstn = true

/-- Everything but STATUS, RESULT0, RESULT1 and BUF is kept: what no command writes (10_state.md R34, R44, R56). -/
structure OperandsKept (s t : State) : Prop where
  ctrl : t.ctrl = s.ctrl
  cmd : t.cmd = s.cmd
  src : t.src = s.src
  dst : t.dst = s.dst
  len : t.len = s.len
  ecaddr : t.ecaddr = s.ecaddr
  arg0 : t.arg0 = s.arg0
  arg1 : t.arg1 = s.arg1
  crcinit : t.crcinit = s.crcinit
  lat : t.lat = s.lat
  rdata : t.rdata = s.rdata
  rstn : t.rstn = s.rstn
  prog : t.prog = s.prog
  pos : t.pos = s.pos
  rstIn : t.rstIn = s.rstIn
  wait : t.wait = s.wait
  latencies : t.latencies = s.latencies
  issues : t.issues = s.issues
  resets : t.resets = s.resets

/-- STATUS at the end of a command that raised no error, with the data-quality flags as given; OVR is kept (60_exceptions.md R305,
10_state.md R56). -/
def statusDone (s : State) (sync crcOk uncorr : Bool) : Status :=
  { busy := false, done := true, sync := sync, crcOk := crcOk, uncorr := uncorr, ovr := s.status.ovr, err := 0 }

/-- STATUS at the end of a command that raised no error and writes no data-quality flag. -/
def statusPlain (s : State) : Status := statusDone s s.status.sync s.status.crcOk s.status.uncorr

/-- s at the end of a command that raised an error: only ERR, DONE and BUSY differ (60_exceptions.md R304). -/
def raised (s : State) (code : BitVec 4) : State :=
  { s with status := { s.status with busy := false, done := true, err := code } }

/-- Every byte of BUF is kept. -/
def BytesKept (s t : State) : Prop := ∀ a, a < 1024 → t.byteAt a = s.byteAt a

/-- Every byte of BUF outside `[lo, lo+n)` is kept. -/
def BytesKeptOutside (s t : State) (lo n : Nat) : Prop :=
  ∀ a, a < 1024 → (a < lo ∨ lo + n ≤ a) → t.byteAt a = s.byteAt a

/-- The table of checks (60_exceptions.md R303) on the latched operands: the error code each command ends with. -/
def checkTable (i : Instr) (l : Latch) : BitVec 4 :=
  let src := l.src.toNat
  let dst := l.dst.toNat
  let n := l.len.toNat
  let ec := l.ecaddr.toNat
  let pick (badLen badAddr : Prop) [Decidable badLen] [Decidable badAddr] : BitVec 4 :=
    if badLen then 2 else if badAddr then 3 else 0
  match i with
  | .nop => 0
  | .golayEnc => 0
  | .golayDec => 0
  | .crc16 => pick (n > 1024) (src + n > 1024)
  | .interleave => pick (n = 0 ∨ n > 1024) (src + n > 1024 ∨ dst + n > 1024)
  | .deinterleave => pick (n = 0 ∨ n > 1024) (src + n > 1024 ∨ dst + n > 1024)
  | .scramble => pick (n = 0 ∨ n > 1024) (src + n > 1024 ∨ dst + n > 1024)
  | .sync => pick False (src + 2 > 1024)
  | .txsize => pick (n = 0 ∨ n > 255) False
  | .encode ci _ _ => pick (n = 0 ∨ n > 255 ∨ (ci = true ∧ n < 3)) (src + n > 1024 ∨ dst + txSize n > 1024)
  | .decode _ _ =>
    pick ((l.anylen = false ∧ n ≠ 22 ∧ n ≠ 32) ∨ (l.anylen = true ∧ (n < 3 ∨ n > 255)))
      (src + txSize n > 1024 ∨ dst + n > 1024 ∨ ec + ncw n > 1024)

/-- Two latches agree on the operands a command reads, bit field by bit field (30_encoding.md R118, R119; 10_state.md R46). -/
def sameOperands (i : Instr) (l m : Latch) : Prop :=
  match i with
  | .nop => True
  | .crc16 => m.src = l.src ∧ m.len = l.len ∧ m.crcinit = l.crcinit
  | .golayEnc => m.arg0.setWidth 12 = l.arg0.setWidth 12
  | .golayDec => m.arg0.setWidth 23 = l.arg0.setWidth 23 ∧ m.arg1.setWidth 12 = l.arg1.setWidth 12
  | .interleave => m.src = l.src ∧ m.dst = l.dst ∧ m.len = l.len
  | .deinterleave => m.src = l.src ∧ m.dst = l.dst ∧ m.len = l.len
  | .scramble => m.src = l.src ∧ m.dst = l.dst ∧ m.len = l.len
  | .sync => m.src = l.src
  | .txsize => m.len = l.len
  | .encode _ _ _ => m.src = l.src ∧ m.dst = l.dst ∧ m.len = l.len ∧ m.crcinit = l.crcinit
  | .decode _ _ =>
    m.src = l.src ∧ m.dst = l.dst ∧ m.len = l.len ∧ m.ecaddr = l.ecaddr ∧ m.crcinit = l.crcinit ∧ m.anylen = l.anylen

/-- A 23-bit word is the product of a polynomial q of degree at most 11 and g(x), that is 0xC75 (41_fec.md R161). -/
def multipleOfG (cw : BitVec 23) (q : BitVec 12) : Prop :=
  cw = (List.range 12).foldl (fun acc i => if q.getLsbD i then acc ^^^ (0xC75#23 <<< i) else acc) 0#23

/-- One shift of a CRC register, with the polynomial x^16 + x^12 + x^5 + 1 spelled out (40_crc.md R140). -/
def crcShiftSpelled (c : BitVec 16) : BitVec 16 := if c.getLsbD 15 then (c <<< 1) ^^^ 0x1021#16 else c <<< 1

/-- Two byte strings of one length XORed: a body and the bits a channel flipped. -/
def xorBytes (X E : List Byte) : List Byte := List.zipWith (· ^^^ ·) X E

/-- The flipped bits of codeword c in an error body E for payload length L: its data bits and its 11 parity bits
(44_packet.md R288). -/
def flipsIn (E : List Byte) (L c : Nat) : Nat :=
  ((List.range (chunkSize L c)).countP fun k => sbit E (12 * c + k))
    + ((List.range 11).countP fun i => sbit E (8 * L + 11 * c + i))

/-- The scrambler mask bit at position k: what SCRAMBLE XORs into index bit k (42_interleave_scramble.md R204, R205). -/
def maskBit (X : List Byte) (k : Nat) : Bool := ibit (scrambleBytes X).1 k ^^ ibit X k

/-- The mask sequence from m_(-15) on: the fifteen seed bits, then the mask bits (42_interleave_scramble.md R204). -/
def maskFromSeed (X : List Byte) (j : Nat) : Bool := if j < 15 then (0x4A80#15).getLsbD j else maskBit X (j - 15)

end Sys2Proof.Machine
end

