-- ==== Sys2Proof/Certificates/Slice0/Obligations.lean ====
section
/-! DEFINITION. The statements. Each cites the rules of spec/ it formalises; OBLIGATIONS.json lists them in this order. -/

open Sys2Proof Sys2Proof.Machine

/-! ### Command words -/

/-- The words of 30_encoding.md R122 and of the opcode map (R116) decode as the spec spells them; three illegal words of R124
decode to no command. -/
def Obligations.DecodeOfSpecWords : Prop :=
  decode 0x00000109#32 = .legal (.encode true false false) ∧ decode 0x0000060A#32 = .legal (.decode true true)
    ∧ decode 0x00000007#32 = .legal .sync ∧ decode 0x00000000#32 = .legal .nop
    ∧ decode 0x00000003#32 = .legal .golayDec ∧ decode 0x0000000B#32 = .illegal .reservedOpcode
    ∧ decode 0x00000101#32 = .illegal .flagNotAllowed ∧ decode 0x80000000#32 = .illegal .reservedBits

/-- The decoder reads a word as an instruction exactly when it is that instruction's word: no bit is dropped, and no two words
mean one instruction (30_encoding.md R116, R120, R122). -/
def Obligations.DecodeEncodeAgree : Prop :=
  ∀ (w : Word) (i : Instr), decode w = .legal i ↔ encode i = w

/-- The legality rule, on the bits of the word (30_encoding.md R117). -/
def Obligations.LegalRuleDecidesDecoding : Prop :=
  ∀ w : Word, (∃ i, decode w = .legal i) ↔
    (w.extractLsb' 11 21 = 0#21 ∧ (w.extractLsb' 0 8).toNat ≤ 0x0A
      ∧ (w.getLsbD 8 = false ∨ w.extractLsb' 0 8 = 0x09#8)
      ∧ (w.getLsbD 9 = false ∨ w.extractLsb' 0 8 = 0x09#8 ∨ w.extractLsb' 0 8 = 0x0A#8)
      ∧ (w.getLsbD 10 = false ∨ w.extractLsb' 0 8 = 0x09#8 ∨ w.extractLsb' 0 8 = 0x0A#8))

/-! ### The step -/

/-- A step in which the engine moves runs the command its latched word decodes to; the step adds only the sampling of rst_n
(10_state.md R45). -/
def Obligations.StepRunsDecodedCommand : Prop :=
  ∀ (s : State) (i : Instr), OutOfReset s → s.status.busy = true → s.wait = 0 → decode s.lat.cmd = .legal i →
    step s = exec i { s with rstIn := s.rstIn.tail }

/-- An illegal word completes with ILLEGAL_CMD and no other effect (30_encoding.md R117, 60_exceptions.md R302, R304). -/
def Obligations.IllegalWordCompletesWithError : Prop :=
  ∀ (s : State), OutOfReset s → s.status.busy = true → s.wait = 0 → legal s.lat.cmd = false →
    step s = .next (raised { s with rstIn := s.rstIn.tail } 1)

/-- No step faults or refuses: the block has no trap, and an error is a completed command (60_exceptions.md R305, R311). -/
def Obligations.StepNeverStops : Prop := ∀ s : State, Runs (step s)

/-- The state after reset meets the invariant. -/
def Obligations.ResetMeetsInv : Prop := Inv State.reset

/-- Every step keeps the invariant: BUF canonical, ERR one of 0 to 3, and while Busy neither DONE nor ERR set and CMD the command
in progress (60_exceptions.md R301, 10_state.md R38; for ERR while Busy see notes/assumptions/23.md). -/
def Obligations.StepKeepsInv : Prop := ∀ s t : State, Inv s → step s = .next t → Inv t

/-- Every issued command completes: with rst_n high, after the steps left to the host the next step completes it
(70_reset_and_hazards.md R349, 60_exceptions.md R305). -/
def Obligations.BusyCommandCompletes : Prop :=
  ∀ s : State, s.rstn = true → s.rstIn = [] → s.status.busy = true →
    ∃ t, core.run (s.wait + 1) s = .next t ∧ t.status.busy = false ∧ t.status.done = true

/-- While a command is in flight no host step reaches it: latch, CMD, BUF, results, the data-quality flags and the engine's
state are kept, whatever the host does, and RESULT0 and RESULT1 read as before (10_state.md R44, R46, 20_memory.md R85, R94). -/
def Obligations.RunningCommandIsolated : Prop :=
  ∀ s : State, OutOfReset s → s.status.busy = true → s.wait ≠ 0 →
    ∃ t, step s = .next t ∧ t.lat = s.lat ∧ t.cmd = s.cmd ∧ t.buf = s.buf ∧ t.result0 = s.result0 ∧ t.result1 = s.result1
      ∧ t.busRead 0x028#11 = s.busRead 0x028#11 ∧ t.busRead 0x02C#11 = s.busRead 0x02C#11
      ∧ t.status.busy = true ∧ t.status.err = s.status.err ∧ t.status.sync = s.status.sync
      ∧ t.status.crcOk = s.status.crcOk ∧ t.status.uncorr = s.status.uncorr ∧ t.wait = s.wait - 1

/-- A GO line of an Idle host issues its command, and with the least latency the next step is that command's, on the operands as
they stood at issue (10_state.md R38, R46, 30_encoding.md R121; for ERR see notes/assumptions/23.md). -/
def Obligations.GoLineRunsCommand : Prop :=
  ∀ (s : State) (i : Instr) (rest : List Nat), s.rstn = true → s.rstIn = [] → s.status.busy = false →
    s.hostLine = some (.go i) → s.latencies = 1 :: rest →
    ∃ u, step s = .next u ∧ step u = exec i u ∧ u.cmd = encode i ∧ u.lat.src = s.src ∧ u.lat.dst = s.dst
      ∧ u.lat.len = s.len ∧ u.lat.ecaddr = s.ecaddr ∧ u.lat.arg0 = s.arg0 ∧ u.lat.arg1 = s.arg1
      ∧ u.lat.crcinit = s.crcinit ∧ u.lat.anylen = s.ctrl.anylen ∧ u.buf = s.buf ∧ u.status.done = false
      ∧ u.status.err = 0 ∧ u.pos = s.pos + 1

/-! ### Host bus -/

/-- A CMD write issues while Idle and is dropped with OVR while Busy. The issue changes CMD, the latch and STATUS, and of the
model's own fields those of the latency; every other register and BUF stay (10_state.md R38, 20_memory.md R86; for ERR, which the
issue clears, see notes/assumptions/23.md). -/
def Obligations.CmdWriteIssuesOrOverruns : Prop :=
  ∀ (s : State) (w : Word),
    (s.status.busy = false →
      ∃ t, s.busWrite 0x00C#11 w = t ∧ t.cmd = w ∧ t.readReg .cmd = w
        ∧ t.lat = { cmd := w, src := s.src, dst := s.dst, len := s.len, ecaddr := s.ecaddr, arg0 := s.arg0, arg1 := s.arg1,
                    crcinit := s.crcinit, anylen := s.ctrl.anylen }
        ∧ t.status = { s.status with err := 0, done := false, busy := true }
        ∧ t.buf = s.buf ∧ t.result0 = s.result0 ∧ t.result1 = s.result1
        ∧ t = { s with cmd := t.cmd, lat := t.lat, status := t.status, wait := t.wait, latencies := t.latencies,
                       issues := t.issues })
    ∧ (s.status.busy = true → s.busWrite 0x00C#11 w = { s with status := { s.status with ovr := true } })

/-- A STATUS write clears DONE by bit 1 and OVR by bit 5, and does nothing else (10_state.md R37). -/
def Obligations.StatusWriteClearsOnly : Prop :=
  ∀ (s : State) (w : Word),
    s.busWrite 0x008#11 w
      = { s with status := { s.status with done := (if w.getLsbD 1 then false else s.status.done),
                                           ovr := (if w.getLsbD 5 then false else s.status.ovr) } }

/-- The BUF window is little-endian, and a window write writes exactly its four bytes (20_memory.md R83). -/
def Obligations.WindowIsLittleEndian : Prop :=
  ∀ (s : State) (k : Nat) (w : Word), k < 256 →
    let A := BitVec.ofNat 11 (0x400 + 4 * k)
    let t := s.busWrite A w
    s.busRead A = (zext32 (s.byteAt (4 * k)) ||| zext32 (s.byteAt (4 * k + 1)) <<< 8
        ||| zext32 (s.byteAt (4 * k + 2)) <<< 16 ||| zext32 (s.byteAt (4 * k + 3)) <<< 24)
      ∧ t.byteAt (4 * k) = w.extractLsb' 0 8 ∧ t.byteAt (4 * k + 1) = w.extractLsb' 8 8
      ∧ t.byteAt (4 * k + 2) = w.extractLsb' 16 8 ∧ t.byteAt (4 * k + 3) = w.extractLsb' 24 8
      ∧ BytesKeptOutside s t (4 * k) 4 ∧ t.busRead A = w ∧ t = { s with buf := t.buf }

/-- Address bits 1:0 are not wired (20_memory.md R81). -/
def Obligations.AddressLowBitsIgnored : Prop :=
  ∀ (s : State) (A : BitVec 11) (w : Word),
    s.busRead A = s.busRead (A &&& ~~~3#11) ∧ s.busWrite A w = s.busWrite (A &&& ~~~3#11) w

/-- Unmapped offsets read zero and ignore writes (10_state.md R50, 20_memory.md R82). -/
def Obligations.UnmappedOffsetsInert : Prop :=
  ∀ (s : State) (A : BitVec 11) (w : Word), 0x03C ≤ A.toNat → A.toNat < 0x400 →
    s.busRead A = 0#32 ∧ s.busWrite A w = s

/-- ID, UWREG and PARAM are hardwired and ignore writes (10_state.md R31, R48, R49); RESULT0 and RESULT1 read as they stand and
ignore host writes too (R44). -/
def Obligations.ReadOnlyRegisters : Prop :=
  ∀ (s : State) (w : Word),
    s.busRead 0x000#11 = 0x484C3201#32 ∧ s.busRead 0x034#11 = 0x00002424#32 ∧ s.busRead 0x038#11 = 0x00FF0400#32
      ∧ s.busRead 0x028#11 = s.result0 ∧ s.busRead 0x02C#11 = s.result1
      ∧ ∀ A : BitVec 11, A ∈ [0x000#11, 0x028#11, 0x02C#11, 0x034#11, 0x038#11] → s.busWrite A w = s

/-- A read-write register reads back the writable bits of what was written, its reserved bits as zero, and no other register
changes (10_state.md R35, R39 to R43, R47, R50). -/
def Obligations.OperandRegistersReadBack : Prop :=
  ∀ (s : State) (w : Word) (A : BitVec 11) (mask : Word),
    (A, mask) ∈ [(0x004#11, 0x3#32), (0x010#11, 0x3FF#32), (0x014#11, 0x3FF#32), (0x018#11, 0x7FF#32), (0x01C#11, 0x3FF#32),
                 (0x020#11, 0xFFFFFFFF#32), (0x024#11, 0xFFFFFFFF#32), (0x030#11, 0xFFFF#32)] →
      (s.busWrite A w).busRead A = w &&& mask
        ∧ (∀ B : BitVec 11, wordAddr B ≠ wordAddr A → (s.busWrite A w).busRead B = s.busRead B)
        ∧ (s.busWrite A w).lat = s.lat ∧ (s.busWrite A w).status = s.status ∧ (s.busWrite A w).buf = s.buf

/-- A presented transaction completes in the step where sel = 1 and ready = 1 and in no other: with either low the host stays
where it is, and out of reset a selected transaction that is not ready has no effect at all (20_memory.md R80). Out of reset and
with no engine step, ready is 1 for a transaction that is not held: a read then only leaves the word on rdata, a write has its
effect (R84, R86). Two things are the model's choice and not R80's: that no transaction is selected in an engine step
(notes/assumptions/18.md), and that rdata keeps its word where no transaction completes, also on the reset edge
(notes/assumptions/4.md). -/
def Obligations.HostTransactionCompletes : Prop :=
  ∀ (s : State),
    (∀ op, s.presented = some op → s.sel = true → s.ready op = true →
      step s = .next { ({ s with rstIn := s.rstIn.tail, wait := s.wait - 1 } : State).busOp op with pos := s.pos + 1 })
    ∧ (∀ op t, s.presented = some op → (s.sel = false ∨ s.ready op = false) → step s = .next t →
      t.pos = s.pos ∧ t.rdata = s.rdata)
    ∧ (∀ op, OutOfReset s → s.presented = some op → s.sel = true → s.ready op = false →
      step s = .next { s with rstIn := s.rstIn.tail, wait := s.wait - 1 })
    ∧ (∀ A, OutOfReset s → s.engineTurn = false → s.presented = some (.read A) → (s.status.busy = false ∨ A.toNat < 0x400) →
      s.sel = true ∧ s.ready (.read A) = true
      ∧ step s = .next { s with rstIn := s.rstIn.tail, wait := s.wait - 1, rdata := s.busRead A, pos := s.pos + 1 })
    ∧ (∀ A w, OutOfReset s → s.engineTurn = false → s.presented = some (.write A w) →
      (s.status.busy = false ∨ A.toNat < 0x400) →
      s.sel = true ∧ s.ready (.write A w) = true
      ∧ step s = .next { ({ s with rstIn := s.rstIn.tail, wait := s.wait - 1 } : State).busWrite A w with pos := s.pos + 1 })

/-- A BUF-window access presented while Busy is held: nothing happens but the passing of the step (20_memory.md R85). -/
def Obligations.WindowAccessHeldWhileBusy : Prop :=
  ∀ (s : State) (op : BusOp), OutOfReset s → s.status.busy = true → s.wait ≠ 0 → s.presented = some op →
    0x400 ≤ op.addr.toNat →
    s.sel = true ∧ s.ready op = false ∧ step s = .next { s with rstIn := s.rstIn.tail, wait := s.wait - 1 }

/-- irq is bit 1 of STATUS and bit 1 of CTRL together, as they read (10_state.md R54, R35, R36). -/
def Obligations.IrqIsDoneAndEnable : Prop :=
  ∀ s : State, s.irq = ((s.busRead 0x008#11).getLsbD 1 && (s.busRead 0x004#11).getLsbD 1)

/-- The layout of STATUS (10_state.md R36, R50). -/
def Obligations.StatusWordLayout : Prop :=
  ∀ s : State,
    (s.busRead 0x008#11).getLsbD 0 = s.status.busy ∧ (s.busRead 0x008#11).getLsbD 1 = s.status.done
      ∧ (s.busRead 0x008#11).getLsbD 2 = s.status.sync ∧ (s.busRead 0x008#11).getLsbD 3 = s.status.crcOk
      ∧ (s.busRead 0x008#11).getLsbD 4 = s.status.uncorr ∧ (s.busRead 0x008#11).getLsbD 5 = s.status.ovr
      ∧ (s.busRead 0x008#11).extractLsb' 8 4 = s.status.err ∧ (s.busRead 0x008#11) &&& 0xFFFFF0C0#32 = 0#32

/-- Acknowledgement: a STATUS write with bit 1 set, or the next issue, clears DONE and with it irq; reading STATUS does not
(60_exceptions.md R309). -/
def Obligations.AcknowledgeClearsIrq : Prop :=
  ∀ (s : State) (w : Word),
    (w.getLsbD 1 = true → (s.busWrite 0x008#11 w).status.done = false ∧ (s.busWrite 0x008#11 w).irq = false)
      ∧ (s.status.busy = false → (s.busWrite 0x00C#11 w).status.done = false ∧ (s.busWrite 0x00C#11 w).irq = false)
      ∧ (s.busOp (.read 0x008#11)).status.done = s.status.done ∧ (s.busOp (.read 0x008#11)).irq = s.irq

/-! ### Reset -/

/-- The first edge with rst_n = 1 gives every register its reset value, from any state, also a Busy one
(70_reset_and_hazards.md R340, R341, 10_state.md R55). -/
def Obligations.ResetEdgeRestoresRegisters : Prop :=
  ∀ s : State, s.rstLevel = true → s.rstn = false →
    ∃ t, step s = .next t ∧ t.status.busy = false ∧ t.irq = false
      ∧ (∀ A : BitVec 11, A ∈ [0x004#11, 0x008#11, 0x00C#11, 0x010#11, 0x014#11, 0x018#11, 0x01C#11, 0x020#11, 0x024#11,
                               0x028#11, 0x02C#11] → t.busRead A = 0#32)
      ∧ t.busRead 0x030#11 = 0x0000FFFF#32 ∧ t.busRead 0x000#11 = 0x484C3201#32 ∧ t.busRead 0x034#11 = 0x00002424#32
      ∧ t.busRead 0x038#11 = 0x00FF0400#32

/-- While rst_n = 0 ready is 0, no transaction completes and no engine step is taken (70_reset_and_hazards.md R340, R341). That the registers
keep their values meanwhile is the model's choice (notes/assumptions/22.md). -/
def Obligations.HeldWhileResetLow : Prop :=
  ∀ s : State, s.rstLevel = false →
    (∀ op, s.ready op = false) ∧ step s = .next { s with rstIn := s.rstIn.tail, rstn := false }

/-! ### What each command does -/

/-- NOP: completion and nothing else; its word is zero, which CMD reads after reset (44_packet.md R270). -/
def Obligations.NopResult : Prop :=
  (∀ s : State, exec .nop s = .next { s with status := statusPlain s })
    ∧ encode .nop = 0x00000000#32 ∧ State.reset.busRead 0x00C#11 = encode .nop

/-- CRC16 (40_crc.md R143, R140). -/
def Obligations.Crc16Result : Prop :=
  ∀ s : State, s.opLen ≤ 1024 → s.opSrc + s.opLen ≤ 1024 →
    exec .crc16 s = .next { s with result0 := zext32 (crc16 s.lat.crcinit (s.memRead s.opSrc s.opLen)), result1 := 0#32,
                                   status := statusPlain s }

/-- GOLAY_ENC answers the one systematic word over ARG0[11:0] that is a multiple of g(x), 0xC75 spelled out; it is what the
statements on the code call `golayEnc` of the data word, and its `golayRem` is zero (41_fec.md R161, R162, R163, R168). -/
def Obligations.GolayEncResult : Prop :=
  ∀ s : State, ∃ cw : BitVec 23,
    exec .golayEnc s = .next { s with result0 := zext32 cw, result1 := zext32 (cw.extractLsb' 0 11), status := statusPlain s }
      ∧ cw.extractLsb' 11 12 = s.lat.arg0.extractLsb' 0 12 ∧ (∃ q : BitVec 12, multipleOfG cw q)
      ∧ cw = golayEnc (s.lat.arg0.extractLsb' 0 12) ∧ golayRem cw = 0#11 ∧ golayEnc 0x001#12 = 0x000C75#23

/-- GOLAY_DEC (41_fec.md R165, R169). -/
def Obligations.GolayDecResult : Prop :=
  ∀ s : State,
    let r := golayDec (s.lat.arg0.extractLsb' 0 23) (s.lat.arg1.extractLsb' 0 12)
    exec .golayDec s = .next { s with result0 := zext32 r.d, result1 := (zext32 r.e <<< 8) ||| BitVec.ofNat 32 r.code,
                                      status := statusDone s s.status.sync s.status.crcOk (decide (r.code = 15)) }

/-- INTERLEAVE: bit i of the source region moves to position (b·i) mod N of the destination region, b the multiplier RESULT0
reports; nothing else changes (42_interleave_scramble.md R200, R201, R207). -/
def Obligations.InterleaveResult : Prop :=
  ∀ s : State, 1 ≤ s.opLen → s.opLen ≤ 1024 → s.opSrc + s.opLen ≤ 1024 → s.opDst + s.opLen ≤ 1024 →
    ∃ t, exec .interleave s = .next t ∧ OperandsKept s t ∧ t.status = statusPlain s
      ∧ t.result0 = BitVec.ofNat 32 (ilB (8 * s.opLen)) ∧ t.result1 = 0#32
      ∧ (∀ i, i < 8 * s.opLen →
          ibit (t.memRead s.opDst s.opLen) (ilB (8 * s.opLen) * i % (8 * s.opLen)) = ibit (s.memRead s.opSrc s.opLen) i)
      ∧ BytesKeptOutside s t s.opDst s.opLen

/-- DEINTERLEAVE: bit i of the destination region comes from position (b·i) mod N of the source region
(42_interleave_scramble.md R200, R202, R208). -/
def Obligations.DeinterleaveResult : Prop :=
  ∀ s : State, 1 ≤ s.opLen → s.opLen ≤ 1024 → s.opSrc + s.opLen ≤ 1024 → s.opDst + s.opLen ≤ 1024 →
    ∃ t, exec .deinterleave s = .next t ∧ OperandsKept s t ∧ t.status = statusPlain s
      ∧ t.result0 = BitVec.ofNat 32 (ilB (8 * s.opLen)) ∧ t.result1 = 0#32
      ∧ (∀ i, i < 8 * s.opLen →
          ibit (t.memRead s.opDst s.opLen) i = ibit (s.memRead s.opSrc s.opLen) (ilB (8 * s.opLen) * i % (8 * s.opLen)))
      ∧ BytesKeptOutside s t s.opDst s.opLen

/-- SCRAMBLE: index bit k is XORed with the k-th output of the LFSR from the seed, and RESULT0 is the LFSR state after all bits
(42_interleave_scramble.md R204, R205, R209). -/
def Obligations.ScrambleResult : Prop :=
  ∀ s : State, 1 ≤ s.opLen → s.opLen ≤ 1024 → s.opSrc + s.opLen ≤ 1024 → s.opDst + s.opLen ≤ 1024 →
    ∃ t, exec .scramble s = .next t ∧ OperandsKept s t ∧ t.status = statusPlain s
      ∧ t.result0 = zext32 (Nat.repeat lfsrNext (8 * s.opLen) 0x4A80#15) ∧ t.result1 = 0#32
      ∧ (∀ k, k < 8 * s.opLen →
          ibit (t.memRead s.opDst s.opLen) k
            = (ibit (s.memRead s.opSrc s.opLen) k ^^ lfsrOut (Nat.repeat lfsrNext k 0x4A80#15)))
      ∧ BytesKeptOutside s t s.opDst s.opLen

/-- SYNC: the flag is the exact match of both bytes, RESULT0 the bytes, first in bits 15:8 (43_framing.md R245, R246). -/
def Obligations.SyncResult : Prop :=
  ∀ s : State, s.opSrc + 2 ≤ 1024 →
    exec .sync s
      = .next { s with
          result0 := (zext32 (s.byteAt s.opSrc) <<< 8) ||| zext32 (s.byteAt (s.opSrc + 1)), result1 := 0#32,
          status := statusDone s (decide (s.byteAt s.opSrc = 0x24#8 ∧ s.byteAt (s.opSrc + 1) = 0x24#8))
            s.status.crcOk s.status.uncorr }

/-- TXSIZE: the frame size, and NCW, RLAST and PAD in their fields of RESULT1 (43_framing.md R242, R243, R247). -/
def Obligations.TxsizeResult : Prop :=
  ∀ s : State, 1 ≤ s.opLen → s.opLen ≤ 255 →
    ∃ t, exec .txsize s = .next t
      ∧ t = { s with result0 := t.result0, result1 := t.result1, status := statusPlain s }
      ∧ t.result0.toNat = txSize s.opLen ∧ (t.result1.extractLsb' 0 8).toNat = ncw s.opLen
      ∧ (t.result1.extractLsb' 8 8).toNat = rlast s.opLen ∧ (t.result1.extractLsb' 16 8).toNat = padBits s.opLen
      ∧ t.result1.extractLsb' 24 8 = 0#8

/-- ENCODE: the frame of the payload, or of the payload with its checksum inserted, at DST: the unique word, then the body
interleaved first and scrambled second, each unless bypassed; the source stays unless it is overlapped (44_packet.md R281, R284,
R286, 42_interleave_scramble.md R210). -/
def Obligations.EncodeResult : Prop :=
  ∀ (s : State) (ci ib sb : Bool), 1 ≤ s.opLen → s.opLen ≤ 255 → (ci = true → 3 ≤ s.opLen) →
    s.opSrc + s.opLen ≤ 1024 → s.opDst + txSize s.opLen ≤ 1024 →
    let P := s.memRead s.opSrc s.opLen
    let crc := crc16 s.lat.crcinit (P.take (s.opLen - 2))
    let P' := if ci then P.take (s.opLen - 2) ++ [crc.extractLsb' 0 8, crc.extractLsb' 8 8] else P
    let B0 := buildBody P'
    let B1 := if ib then B0 else interleaveBytes B0
    let B2 := if sb then B1 else (scrambleBytes B1).1
    ∃ t, exec (.encode ci ib sb) s = .next t ∧ OperandsKept s t ∧ t.status = statusPlain s
      ∧ t.result0 = BitVec.ofNat 32 (txSize s.opLen) ∧ t.result1 = zext32 crc
      ∧ t.memRead s.opDst (txSize s.opLen) = buildFrame P' ib sb
      ∧ t.memRead s.opDst (txSize s.opLen) = [0x24#8, 0x24#8] ++ B2
      ∧ BytesKeptOutside s t s.opDst (txSize s.opLen)

/-- DECODE: payload at DST, then one code byte per codeword at ECADDR, the flags and both result words; all other bytes stay.
SYNC says whether the two first bytes are the unique word, and whatever it says each codeword is decoded: its data bits and its
parity bits from the received body, with the known-zero mask of its chunk; the payload bits are those of the corrected data
(44_packet.md R282, R285, R287, 43_framing.md R245, 20_memory.md R91). -/
def Obligations.DecodeResult : Prop :=
  ∀ (s : State) (ib sb : Bool),
    ((s.lat.anylen = false ∧ (s.opLen = 22 ∨ s.opLen = 32)) ∨ (s.lat.anylen = true ∧ 3 ≤ s.opLen ∧ s.opLen ≤ 255)) →
    s.opSrc + txSize s.opLen ≤ 1024 → s.opDst + s.opLen ≤ 1024 → s.opEc + ncw s.opLen ≤ 1024 →
    let L := s.opLen
    let K := ncw L
    let F := s.memRead s.opSrc (txSize L)
    let X2 := receiveBody (F.drop 2) ib sb
    let r := decodeFrame F L ib sb
    let crc := crc16 s.lat.crcinit (r.out.take (L - 2))
    let rx := (r.out.getD (L - 2) 0).setWidth 16 ||| ((r.out.getD (L - 1) 0).setWidth 16 <<< 8)
    ∃ t, exec (.decode ib sb) s = .next t ∧ OperandsKept s t
      ∧ t.status = statusDone s r.sync (decide (crc = rx)) (decide (15 ∈ r.codes))
      ∧ r.out.length = L ∧ r.codes.length = K
      ∧ (∀ j, j < K → t.byteAt (s.opEc + j) = BitVec.ofNat 8 (r.codes.getD j 0))
      ∧ (∀ j, j < L → (s.opDst + j < s.opEc ∨ s.opEc + K ≤ s.opDst + j) → t.byteAt (s.opDst + j) = r.out.getD j 0)
      ∧ (∀ a, a < 1024 → (a < s.opDst ∨ s.opDst + L ≤ a) → (a < s.opEc ∨ s.opEc + K ≤ a) → t.byteAt a = s.byteAt a)
      ∧ t.result0.extractLsb' 16 16 = rx ∧ t.result0.extractLsb' 0 16 = crc
      ∧ (t.result1.extractLsb' 16 16).toNat = (r.codes.filter fun c => c ≠ 15).sum
      ∧ (t.result1.extractLsb' 8 8).toNat = r.codes.count 15 ∧ (t.result1.extractLsb' 0 8).toNat = K
      ∧ r.sync = decide (F.getD 0 0 = 0x24#8 ∧ F.getD 1 0 = 0x24#8)
      ∧ ∀ c, c < K →
          ∃ cw : BitVec 23, cw.extractLsb' 11 12 = dataWord (X2.take L) c (chunkSize L c)
            ∧ (∀ i, i < 11 → cw.getLsbD (10 - i) = sbit X2 (8 * L + 11 * c + i))
            ∧ r.codes.getD c 0 = (golayDec cw (knownZero (chunkSize L c))).code
            ∧ ∀ k, k < chunkSize L c →
                sbit r.out (12 * c + k)
                  = (golayDec cw (knownZero (chunkSize L c))).d.getLsbD
                      (if chunkSize L c = 12 then 11 - k else chunkSize L c - k)

/-! ### Rules over all commands -/

/-- A command that raises an error changes ERR, DONE and BUSY only; so does an illegal word (60_exceptions.md R304). -/
def Obligations.ErrorHasNoSideEffects : Prop :=
  (∀ (i : Instr) (s t : State), exec i s = .next t → t.status.err ≠ 0 → t = raised s t.status.err)
    ∧ ∀ s t : State, s.engineMove = .next t → t.status.err ≠ 0 → t = raised s t.status.err

/-- Each command ends with the error code the table of checks gives (60_exceptions.md R303, in the order of R302). -/
def Obligations.ChecksOfEachCommand : Prop :=
  ∀ (i : Instr) (s : State), ∃ t, exec i s = .next t ∧ t.status.err = checkTable i s.lat

/-- The writers of the flags: SYNC by SYNC and DECODE, CRC_OK by DECODE, UNCORR by GOLAY_DEC and DECODE, OVR by no command;
BUSY and DONE by all (10_state.md R56, R36). -/
def Obligations.FlagWriters : Prop :=
  ∀ (i : Instr) (s t : State), exec i s = .next t →
    t.status.busy = false ∧ t.status.done = true ∧ t.status.ovr = s.status.ovr
      ∧ (t.status.sync ≠ s.status.sync → i = .sync ∨ ∃ ib sb, i = .decode ib sb)
      ∧ (t.status.crcOk ≠ s.status.crcOk → ∃ ib sb, i = .decode ib sb)
      ∧ (t.status.uncorr ≠ s.status.uncorr → i = .golayDec ∨ ∃ ib sb, i = .decode ib sb)

/-- No command writes an operand register, CTRL, CMD, CRCINIT or the latch (10_state.md R34, R46). -/
def Obligations.NoCommandWritesOperands : Prop :=
  ∀ (i : Instr) (s t : State), exec i s = .next t → OperandsKept s t

/-- A command reads only the latched operands listed for it: two states that agree on those end alike
(30_encoding.md R118, R119). -/
def Obligations.CommandReadsListedOperandsOnly : Prop :=
  ∀ (i : Instr) (s : State) (m : Latch), sameOperands i s.lat m →
    ∃ t v, exec i s = .next t ∧ exec i { s with lat := m } = .next v ∧ v = { t with lat := m }

/-- No command reads state a previous command wrote, other than BUF: with one latch and one BUF, results, flags it writes and
bytes are the same whatever the earlier results and flags were (60_exceptions.md R316). -/
def Obligations.CommandIndependentOfEarlierResults : Prop :=
  ∀ (i : Instr) (s : State) (r0 r1 : Word) (st : Status),
    ∃ t v, exec i s = .next t ∧ exec i { s with result0 := r0, result1 := r1, status := st } = .next v
      ∧ v.buf = t.buf ∧ v.status.err = t.status.err
      ∧ (t.status.err = 0 → i ≠ .nop → v.result0 = t.result0 ∧ v.result1 = t.result1)
      ∧ (t.status.err = 0 → (i = .sync ∨ ∃ ib sb, i = .decode ib sb) → v.status.sync = t.status.sync)
      ∧ (t.status.err = 0 → (∃ ib sb, i = .decode ib sb) → v.status.crcOk = t.status.crcOk)
      ∧ (t.status.err = 0 → (i = .golayDec ∨ ∃ ib sb, i = .decode ib sb) → v.status.uncorr = t.status.uncorr)

/-! ### The units -/

/-- The CRC: of nothing it is the initial value, of one byte it is eight shifts with the polynomial 0x1021 after the byte has
entered the top, of a longer string it is computed in pieces; the check value over `123456789` is 0x29B1 (40_crc.md R140,
R141). -/
def Obligations.CrcInPieces : Prop :=
  (∀ init, crc16 init [] = init)
    ∧ (∀ (init : BitVec 16) (x : Byte), crc16 init [x] = Nat.repeat crcShiftSpelled 8 (init ^^^ (x.setWidth 16 <<< 8)))
    ∧ (∀ init X Y, crc16 init (X ++ Y) = crc16 (crc16 init X) Y)
    ∧ crc16 0xFFFF#16 [0x31, 0x32, 0x33, 0x34, 0x35, 0x36, 0x37, 0x38, 0x39] = 0x29B1#16

/-- The remainder and the encoder are linear (41_fec.md R160, R162). -/
def Obligations.GolayIsLinear : Prop :=
  (∀ p q : BitVec 23, golayRem (p ^^^ q) = golayRem p ^^^ golayRem q)
    ∧ ∀ d1 d2 : BitVec 12, golayEnc (d1 ^^^ d2) = golayEnc d1 ^^^ golayEnc d2

/-- The code properties: every codeword has remainder zero, the least distance of two codewords is 7, the encoder is injective
(41_fec.md R163). -/
def Obligations.GolayDistanceSeven : Prop :=
  (∀ d, golayRem (golayEnc d) = 0#11)
    ∧ (∀ d1 d2, d1 ≠ d2 → 7 ≤ popcount (golayEnc d1 ^^^ golayEnc d2))
    ∧ (∃ d1 d2, d1 ≠ d2 ∧ popcount (golayEnc d1 ^^^ golayEnc d2) = 7)
    ∧ (∀ d1 d2, golayEnc d1 = golayEnc d2 → d1 = d2)
    ∧ golayEnc 0x000#12 = 0x000000#23 ∧ golayEnc 0xFFF#12 = 0x7FFFFF#23

/-- The syndrome table is a bijection between the 2048 syndromes and the patterns of weight at most 3 (41_fec.md R164). -/
def Obligations.SyndromeTableIsBijection : Prop :=
  (∀ e : BitVec 23, popcount e ≤ 3 → golayDT (golayRem e) = e)
    ∧ (∀ y : BitVec 11, popcount (golayDT y) ≤ 3 ∧ golayRem (golayDT y) = y) ∧ golayDT 0#11 = 0#23

/-- What the decoder guarantees: at most three errors are corrected exactly; four or more always give other data, flagged
exactly when that data sets a known-zero bit and otherwise reported with a code of 0 to 3; and no other correction of weight at
most three exists (41_fec.md R167). -/
def Obligations.GolayDecoderGuarantee : Prop :=
  (∀ (d0 : BitVec 12) (e0 : BitVec 23) (kz : BitVec 12), popcount e0 ≤ 3 → kz &&& d0 = 0#12 →
      golayDec (golayEnc d0 ^^^ e0) kz = { d := d0, e := e0, code := popcount e0 })
    ∧ (∀ (d0 : BitVec 12) (e0 : BitVec 23) (kz : BitVec 12), 4 ≤ popcount e0 → (golayDec (golayEnc d0 ^^^ e0) kz).d ≠ d0)
    ∧ (∀ (cw : BitVec 23) (kz : BitVec 12),
        if (golayDec cw kz).d &&& kz = 0#12 then (golayDec cw kz).code ≤ 3 else (golayDec cw kz).code = 15)
    ∧ (∀ (cw : BitVec 23) (kz : BitVec 12) (d : BitVec 12) (e : BitVec 23), cw = golayEnc d ^^^ e → popcount e ≤ 3 →
      (golayDec cw kz).d = d ∧ (golayDec cw kz).e = e)

/-- The error codes are 0 to 3 and 0xF, and 0xF on a word whose known-zero bits were sent as zero means at least four flips
(41_fec.md R166, R170). -/
def Obligations.UncorrectableFlagIsSound : Prop :=
  (∀ cw kz, (golayDec cw kz).code ≤ 3 ∨ (golayDec cw kz).code = 15)
    ∧ ∀ (d0 : BitVec 12) (e0 : BitVec 23) (kz : BitVec 12), d0 &&& kz = 0#12 →
      (golayDec (golayEnc d0 ^^^ e0) kz).code = 15 → 4 ≤ popcount e0

/-- The multiplier is the largest prime below the number of bits, and coprime to it (42_interleave_scramble.md R200). -/
def Obligations.MultiplierIsLargestPrime : Prop :=
  ∀ n, 1 ≤ n → (ilB (8 * n)).Prime ∧ ilB (8 * n) < 8 * n ∧ (∀ q, q.Prime → q < 8 * n → q ≤ ilB (8 * n))
    ∧ Nat.Coprime (ilB (8 * n)) (8 * n)

/-- The interleaver and its inverse undo each other, and bit 0 stays (42_interleave_scramble.md R203). -/
def Obligations.InterleaverIsBijection : Prop :=
  ∀ X : List Byte, X ≠ [] →
    deinterleaveBytes (interleaveBytes X) = X ∧ interleaveBytes (deinterleaveBytes X) = X
      ∧ (interleaveBytes X).length = X.length ∧ ibit (interleaveBytes X) 0 = ibit X 0

/-- Descramble is scramble (42_interleave_scramble.md R206). -/
def Obligations.ScramblerIsInvolution : Prop :=
  (∀ X : List Byte, (scrambleBytes (scrambleBytes X).1).1 = X) ∧ pseudoDescramble = .scramble

/-- The scrambler's mask does not depend on the data, and follows the recurrence m_k = m_(k-15) ^ m_(k-14) from the seed bits
0x4A80 on, which are m_(-15) to m_(-1); the final LFSR state holds the last fifteen of that sequence
(42_interleave_scramble.md R204, R205). -/
def Obligations.ScrambleMaskRecurrence : Prop :=
  (∀ (X Y : List Byte) (k : Nat), k < 8 * X.length → k < 8 * Y.length → maskBit X k = maskBit Y k)
    ∧ (∀ (X : List Byte) (k : Nat), k < 8 * X.length → maskBit X k = (maskFromSeed X k ^^ maskFromSeed X (k + 1)))
    ∧ ∀ (X : List Byte) (j : Nat), j < 15 → (scrambleBytes X).2.getLsbD j = maskFromSeed X (8 * X.length + j)

/-- The frame sizes: the chunk sizes by residue, strict growth, the padding below a byte, and the largest frame and payload fit
in BUF (43_framing.md R242, R243). -/
def Obligations.FrameSizes : Prop :=
  (∀ L, 1 ≤ L →
      rlast L = (if L % 3 = 0 then 12 else if L % 3 = 1 then 8 else 4)
        ∧ (∀ c, chunkSize L c = if c + 1 < ncw L then 12 else rlast L)
        ∧ 12 * (ncw L - 1) + rlast L = 8 * L ∧ txSize L < txSize (L + 1) ∧ padBits L ≤ 7
        ∧ 8 * (txSize L - 2) = 8 * L + 11 * ncw L + padBits L)
    ∧ txSize 22 = 45 ∧ txSize 32 = 65 ∧ txSize 255 + 255 ≤ 1024

/-- The systematic body: the payload unchanged, then the parity of each chunk, bit 10 first, then zero padding
(43_framing.md R244, 44_packet.md R283). -/
def Obligations.SystematicBody : Prop :=
  ∀ P : List Byte, P ≠ [] →
    let L := P.length
    (buildBody P).length = txSize L - 2 ∧ (buildBody P).take L = P
      ∧ (∀ c i, c < ncw L → i < 11 →
          sbit (buildBody P) (8 * L + 11 * c + i) = (golayPar (dataWord P c (chunkSize L c))).getLsbD (10 - i))
      ∧ ∀ k, 8 * L + 11 * ncw L ≤ k → k < 8 * (txSize L - 2) → sbit (buildBody P) k = false

/-- A chunk's data word: its stream bits from bit 11 down where it is full, from bit r down to bit 1 where it has r < 12, and
then zero on the known-zero mask (44_packet.md R280, R282). -/
def Obligations.ChunkAlignment : Prop :=
  ∀ (P : List Byte) (c : Nat),
    (∀ j, j < 12 → (dataWord P c 12).getLsbD (11 - j) = sbit P (12 * c + j))
      ∧ (∀ r, r = 4 ∨ r = 8 →
          (∀ j, j < r → (dataWord P c r).getLsbD (r - j) = sbit P (12 * c + j)) ∧ dataWord P c r &&& knownZero r = 0#12)
      ∧ knownZero 12 = 0#12 ∧ knownZero 8 = 0xE01#12 ∧ knownZero 4 = 0xFE1#12

/-! ### Whole packets -/

/-- Decoding the frame of a payload, with the bypasses it was built with, returns the payload, no errors and sync
(44_packet.md R288). -/
def Obligations.DecodeFrameInvertsBuildFrame : Prop :=
  ∀ (P : List Byte) (ib sb : Bool), P ≠ [] →
    decodeFrame (buildFrame P ib sb) P.length ib sb
      = { out := P, codes := List.replicate (ncw P.length) 0, sync := true }

/-- Up to three flips in every codeword of the received body are corrected, and the codes count them
(44_packet.md R288). -/
def Obligations.PacketCorrectsThreePerCodeword : Prop :=
  ∀ (P E F : List Byte) (ib sb : Bool), P ≠ [] → E.length = (buildBody P).length →
    receiveBody (F.drop 2) ib sb = xorBytes (buildBody P) E → (∀ c, c < ncw P.length → flipsIn E P.length c ≤ 3) →
    (decodeFrame F P.length ib sb).out = P
      ∧ (decodeFrame F P.length ib sb).codes = (List.range (ncw P.length)).map fun c => flipsIn E P.length c

/-- DECODE of a frame that ENCODE built: the payload is recovered, no codeword is flagged, SYNC is set, and CRC_OK says whether
the payload's last two bytes hold its checksum (44_packet.md R288). -/
def Obligations.DecodeOfEncodedFrame : Prop :=
  ∀ (s : State) (P : List Byte) (ib sb : Bool), P.length = s.opLen →
    ((s.lat.anylen = false ∧ (s.opLen = 22 ∨ s.opLen = 32)) ∨ (s.lat.anylen = true ∧ 3 ≤ s.opLen ∧ s.opLen ≤ 255)) →
    s.opSrc + txSize s.opLen ≤ 1024 → s.opDst + s.opLen ≤ 1024 → s.opEc + ncw s.opLen ≤ 1024 →
    (s.opDst + s.opLen ≤ s.opEc ∨ s.opEc + ncw s.opLen ≤ s.opDst) →
    s.memRead s.opSrc (txSize s.opLen) = buildFrame P ib sb →
    ∃ t, exec (.decode ib sb) s = .next t ∧ t.memRead s.opDst s.opLen = P
      ∧ t.memRead s.opEc (ncw s.opLen) = zeroBytes (ncw s.opLen)
      ∧ t.status.sync = true ∧ t.status.uncorr = false ∧ t.status.err = 0
      ∧ t.status.crcOk = decide (P.drop (s.opLen - 2) = leBytes (crc16 s.lat.crcinit (P.take (s.opLen - 2))))
      ∧ t.result1 = BitVec.ofNat 32 (ncw s.opLen)

/-! ### The host's program -/

/-- The expansions of the pseudo-commands, standing from line p on, with WAIT as the loop on STATUS bit 0 (30_encoding.md
R123). WRBUF is stated for the addresses the rule gives it, a multiple of 4 whose words lie in BUF; what it does at others is the
model's (notes/assumptions/6.md). -/
def Obligations.PseudoCommandExpansions : Prop :=
  ∀ (p : Nat) (x y z e : Word) (ci ib sb : Bool),
    encode pseudoDescramble = 0x00000006#32 ∧ encode pseudoDeframe = 0x00000007#32
      ∧ pseudoWait p = [.rd .status, .branch (.bs 0) p]
      ∧ pseudoCrc p x y = .wr .src x :: .wr .len y :: .go .crc16 :: pseudoWait (p + 3)
      ∧ pseudoGenc p x = .wr .arg0 x :: .go .golayEnc :: pseudoWait (p + 2)
      ∧ pseudoGdec p x y = .wr .arg0 x :: .wr .arg1 y :: .go .golayDec :: pseudoWait (p + 3)
      ∧ pseudoIlv p x y z = .wr .src x :: .wr .dst y :: .wr .len z :: .go .interleave :: pseudoWait (p + 4)
      ∧ pseudoDilv p x y z = .wr .src x :: .wr .dst y :: .wr .len z :: .go .deinterleave :: pseudoWait (p + 4)
      ∧ pseudoScr p x y z = .wr .src x :: .wr .dst y :: .wr .len z :: .go .scramble :: pseudoWait (p + 4)
      ∧ pseudoSyncat p x = .wr .src x :: .go .sync :: pseudoWait (p + 2)
      ∧ pseudoTxs p x = .wr .len x :: .go .txsize :: pseudoWait (p + 2)
      ∧ pseudoEnc p x y z ci ib sb = .wr .src x :: .wr .dst y :: .wr .len z :: .go (.encode ci ib sb) :: pseudoWait (p + 4)
      ∧ pseudoDec p x y z e ib sb
          = .wr .src x :: .wr .dst y :: .wr .len z :: .wr .ecaddr e :: .go (.decode ib sb) :: pseudoWait (p + 5)
      ∧ ∀ (a : Nat) (bs : List Byte), a % 4 = 0 → a + 4 * ((bs.length + 3) / 4) ≤ 1024 →
          (pseudoWrbuf a bs).length = (bs.length + 3) / 4
            ∧ ∀ k, k < (bs.length + 3) / 4 →
              (pseudoWrbuf a bs)[k]?
                = some (.wrw (BitVec.ofNat 11 (0x400 + a + 4 * k))
                    (zext32 (bs.getD (4 * k) 0) ||| zext32 (bs.getD (4 * k + 1) 0) <<< 8
                      ||| zext32 (bs.getD (4 * k + 2) 0) <<< 16 ||| zext32 (bs.getD (4 * k + 3) 0) <<< 24))

/-! ### The datapaths -/

/-- The order of the stages: a frame is the unique word, then the body interleaved first and scrambled second; reception
descrambles first and deinterleaves second; a bypassed stage is left out, and the unique word passes neither
(44_packet.md R284, R285, 42_interleave_scramble.md R210). -/
def Obligations.StageOrder : Prop :=
  ∀ P X : List Byte,
    buildFrame P false false = [0x24#8, 0x24#8] ++ (scrambleBytes (interleaveBytes (buildBody P))).1
      ∧ buildFrame P false true = [0x24#8, 0x24#8] ++ interleaveBytes (buildBody P)
      ∧ buildFrame P true false = [0x24#8, 0x24#8] ++ (scrambleBytes (buildBody P)).1
      ∧ buildFrame P true true = [0x24#8, 0x24#8] ++ buildBody P
      ∧ receiveBody X false false = deinterleaveBytes (scrambleBytes X).1
      ∧ receiveBody X false true = deinterleaveBytes X
      ∧ receiveBody X true false = (scrambleBytes X).1
      ∧ receiveBody X true true = X
end

