-- ==== Sys2Proof/Laws/Bits.lean ====
section
/-! SUPPORT. The bit orders: what a packed byte string reads as, bit by bit, and when two byte strings are equal. -/

namespace Sys2Proof.Machine

theorem getLsbD_byteMsb (bs : List Bool) {j : Nat} (h : j < 8) : (byteMsb bs).getLsbD j = bs.getD (7 - j) false := by
  simp [byteMsb, h]

theorem getLsbD_byteLsb (bs : List Bool) {j : Nat} (h : j < 8) : (byteLsb bs).getLsbD j = bs.getD j false := by
  simp [byteLsb, h]

@[simp] theorem length_packMsbN (n : Nat) (bs : List Bool) : (packMsbN n bs).length = n := by
  induction n generalizing bs with
  | zero => rfl
  | succ n ih => simp [packMsbN, ih]

@[simp] theorem length_packLsbN (n : Nat) (bs : List Bool) : (packLsbN n bs).length = n := by
  induction n generalizing bs with
  | zero => rfl
  | succ n ih => simp [packLsbN, ih]

@[simp] theorem length_packMsb (bs : List Bool) : (packMsb bs).length = (bs.length + 7) / 8 := by simp [packMsb]

theorem getD_packMsbN (n : Nat) (bs : List Bool) {q : Nat} (h : q < n) :
    (packMsbN n bs).getD q 0 = byteMsb (bs.drop (8 * q)) := by
  induction n generalizing bs q with
  | zero => omega
  | succ n ih =>
    cases q with
    | zero => simp [packMsbN]
    | succ q =>
      have := ih (bs.drop 8) (q := q) (by omega)
      simp only [packMsbN, List.getD_cons_succ, this, List.drop_drop]
      congr 2; omega

theorem getD_packLsbN (n : Nat) (bs : List Bool) {q : Nat} (h : q < n) :
    (packLsbN n bs).getD q 0 = byteLsb (bs.drop (8 * q)) := by
  induction n generalizing bs q with
  | zero => omega
  | succ n ih =>
    cases q with
    | zero => simp [packLsbN]
    | succ q =>
      have := ih (bs.drop 8) (q := q) (by omega)
      simp only [packLsbN, List.getD_cons_succ, this, List.drop_drop]
      congr 2; omega

theorem getD_drop {α : Type} (l : List α) (d : α) (i j : Nat) : (l.drop i).getD j d = l.getD (i + j) d := by
  simp [List.getD_eq_getElem?_getD]

/-- Stream bit k of n packed bytes is the k-th bit packed (zero past the end). -/
theorem sbit_packMsbN (n : Nat) (bs : List Bool) {k : Nat} (h : k < 8 * n) : sbit (packMsbN n bs) k = bs.getD k false := by
  simp only [sbit, getD_packMsbN n bs (show k / 8 < n by omega), getLsbD_byteMsb _ (show 7 - k % 8 < 8 by omega), getD_drop]
  congr 1; omega

/-- Index bit k of n packed bytes is the k-th bit packed (zero past the end). -/
theorem ibit_packLsbN (n : Nat) (bs : List Bool) {k : Nat} (h : k < 8 * n) : ibit (packLsbN n bs) k = bs.getD k false := by
  simp only [ibit, getD_packLsbN n bs (show k / 8 < n by omega), getLsbD_byteLsb _ (show k % 8 < 8 by omega), getD_drop]
  congr 1; omega

/-- Stream bit k of PACK_MSB. -/
theorem sbit_packMsb (bs : List Bool) {k : Nat} (h : k < bs.length) : sbit (packMsb bs) k = bs.getD k false :=
  sbit_packMsbN _ _ (by omega)

/-- Two byte strings of one length with the same index bits are equal. -/
theorem eq_of_ibit {X Y : List Byte} (hl : X.length = Y.length)
    (h : ∀ k, k < 8 * X.length → ibit X k = ibit Y k) : X = Y := by
  refine List.ext_getElem hl fun q h1 h2 => ?_
  refine BitVec.eq_of_getLsbD_eq fun j hj => ?_
  have := h (8 * q + j) (by omega)
  simp only [ibit, show (8 * q + j) / 8 = q by omega, show (8 * q + j) % 8 = j by omega] at this
  simpa [h1, h2] using this

/-- Two byte strings of one length with the same stream bits are equal. -/
theorem eq_of_sbit {X Y : List Byte} (hl : X.length = Y.length)
    (h : ∀ k, k < 8 * X.length → sbit X k = sbit Y k) : X = Y := by
  refine List.ext_getElem hl fun q h1 h2 => ?_
  refine BitVec.eq_of_getLsbD_eq fun j hj => ?_
  have := h (8 * q + (7 - j)) (by omega)
  simp only [sbit, show (8 * q + (7 - j)) / 8 = q by omega, show 7 - (8 * q + (7 - j)) % 8 = j by omega] at this
  simpa [h1, h2] using this

@[simp] theorem length_streamBits (X : List Byte) : (streamBits X).length = 8 * X.length := by
  induction X with
  | nil => rfl
  | cons x X ih => simp only [streamBits, List.flatMap_cons, List.length_append, List.length_cons] at ih ⊢; simp [ih]; omega

@[simp] theorem length_indexBits (X : List Byte) : (indexBits X).length = 8 * X.length := by
  induction X with
  | nil => rfl
  | cons x X ih => simp only [indexBits, List.flatMap_cons, List.length_append, List.length_cons] at ih ⊢; simp [ih]; omega

theorem getD_streamBits (X : List Byte) : ∀ {k : Nat}, k < 8 * X.length → (streamBits X).getD k false = sbit X k := by
  induction X with
  | nil => intro k h; simp at h
  | cons x X ih =>
    intro k h
    have hs : streamBits (x :: X) = ((List.range 8).map fun j => x.getLsbD (7 - j)) ++ streamBits X := rfl
    rw [hs]
    by_cases hk : k < 8
    · rw [List.getD_append _ _ _ _ (by simpa using hk)]
      simp [sbit, show k / 8 = 0 by omega, hk, Nat.mod_eq_of_lt hk]
    · rw [List.getD_append_right _ _ _ _ (by simp; omega)]
      simp only [List.length_map, List.length_range]
      rw [ih (by simp at h; omega)]
      obtain ⟨m, rfl⟩ : ∃ m, k = m + 8 := ⟨k - 8, by omega⟩
      simp [sbit, show (m + 8) / 8 = m / 8 + 1 by omega]

theorem getD_indexBits (X : List Byte) : ∀ {k : Nat}, k < 8 * X.length → (indexBits X).getD k false = ibit X k := by
  induction X with
  | nil => intro k h; simp at h
  | cons x X ih =>
    intro k h
    have hs : indexBits (x :: X) = ((List.range 8).map fun j => x.getLsbD j) ++ indexBits X := rfl
    rw [hs]
    by_cases hk : k < 8
    · rw [List.getD_append _ _ _ _ (by simpa using hk)]
      simp [ibit, show k / 8 = 0 by omega, hk, Nat.mod_eq_of_lt hk]
    · rw [List.getD_append_right _ _ _ _ (by simp; omega)]
      simp only [List.length_map, List.length_range]
      rw [ih (by simp at h; omega)]
      obtain ⟨m, rfl⟩ : ∃ m, k = m + 8 := ⟨k - 8, by omega⟩
      simp [ibit, show (m + 8) / 8 = m / 8 + 1 by omega]

@[simp] theorem length_setIbit (Y : List Byte) (k : Nat) (b : Bool) : (setIbit Y k b).length = Y.length := by
  simp [setIbit]

theorem getLsbD_setBit (y : Byte) {j : Nat} (b : Bool) (i : Nat) (hj : j < 8) (hi : i < 8) :
    (setBit y j b).getLsbD i = if i = j then b else y.getLsbD i := by
  by_cases h : i = j
  · subst h; cases b <;> simp [setBit, hi]
  · have : i < j ∨ i - j ≠ 0 := by omega
    cases b <;> simp [setBit, hi, h] <;> omega

/-- The assignment to one index bit. -/
theorem ibit_setIbit (Y : List Byte) {k : Nat} (b : Bool) (j : Nat) (hk : k < 8 * Y.length) :
    ibit (setIbit Y k b) j = if j = k then b else ibit Y j := by
  simp only [ibit, setIbit, List.getD_eq_getElem?_getD, List.getElem?_modify]
  by_cases hq : k / 8 = j / 8
  · have hlt : j / 8 < Y.length := by omega
    rw [List.getElem?_eq_getElem hlt]
    simp only [hq, if_true, Option.map_eq_map, Option.map_some, Option.getD_some]
    rw [getLsbD_setBit _ _ _ (by omega) (by omega)]
    by_cases hj : j = k
    · simp [hj]
    · rw [if_neg (by omega), if_neg hj]
  · have hj : j ≠ k := by rintro rfl; exact hq rfl
    simp [hq, hj]

/-- A stream field is the number whose bits, first the most significant, are the stream bits. -/
theorem streamField_succ (X : List Byte) (start r : Nat) :
    streamField X start (r + 1) = 2 * streamField X start r + (sbit X (start + r)).toNat := by
  simp [streamField, List.range_succ]

theorem streamField_lt (X : List Byte) (start r : Nat) : streamField X start r < 2 ^ r := by
  induction r with
  | zero => simp [streamField]
  | succ r ih =>
    rw [streamField_succ, Nat.pow_succ]
    have : (sbit X (start + r)).toNat ≤ 1 := Bool.toNat_le _
    omega

theorem testBit_streamField (X : List Byte) (start r : Nat) : ∀ {i : Nat}, i < r →
    (streamField X start r).testBit i = sbit X (start + (r - 1 - i)) := by
  induction r with
  | zero => intro i h; omega
  | succ r ih =>
    intro i h
    rw [streamField_succ]
    cases i with
    | zero => cases hb : sbit X (start + r) <;> simp [Nat.testBit_zero, hb]
    | succ i =>
      rw [Nat.testBit_succ, show (2 * streamField X start r + (sbit X (start + r)).toNat) / 2 = streamField X start r by
        have : (sbit X (start + r)).toNat ≤ 1 := Bool.toNat_le _
        omega, ih (by omega)]
      congr 1; omega

@[simp] theorem length_fieldBits (v r : Nat) : (fieldBits v r).length = r := by simp [fieldBits]

theorem getD_fieldBits (v : Nat) {r k : Nat} (h : k < r) : (fieldBits v r).getD k false = v.testBit (r - 1 - k) := by
  simp [fieldBits, h]

end Sys2Proof.Machine
end

