-- ==== Sys2Proof/Laws/Decode.lean ====
section
/-! SUPPORT. Every `Instr` is well-formed: `Instr` holds legal commands only (30_encoding.md R117). -/

namespace Sys2Proof

@[simp] theorem Instr.wellFormed_all (i : Instr) : i.wellFormed = true := by
  cases i with
  | encode ci ib sb => revert ci ib sb; decide
  | decode ib sb => revert ib sb; decide
  | _ => decide

/-- The assembler never refuses the fields of an instruction (30_encoding.md R122). -/
theorem assemble_fields (i : Instr) : assemble i.fields = some (encode i) := by
  have h := i.wellFormed_all
  simp only [Instr.wellFormed] at h
  simp [assemble, h, encode]

end Sys2Proof
end

