-- ==== Sys2Proof/Laws/State.lean ====
section
/-! SUPPORT. For each update of the state, one lemma per field, true by definition, so that no proof unfolds a record update. -/

namespace Sys2Proof.Machine

@[simp] theorem State.complete_eq (s : State) : s.complete = s.completeWith errNone := rfl
@[simp] theorem State.raise_eq (s : State) (c : BitVec 4) : s.raise c = s.completeWith c := rfl

section
variable (s : State) (a : Nat) (V : List Byte)

@[simp] theorem State.memWrite_ctrl : (s.memWrite a V).ctrl = s.ctrl := rfl
@[simp] theorem State.memWrite_status : (s.memWrite a V).status = s.status := rfl
@[simp] theorem State.memWrite_cmd : (s.memWrite a V).cmd = s.cmd := rfl
@[simp] theorem State.memWrite_src : (s.memWrite a V).src = s.src := rfl
@[simp] theorem State.memWrite_dst : (s.memWrite a V).dst = s.dst := rfl
@[simp] theorem State.memWrite_len : (s.memWrite a V).len = s.len := rfl
@[simp] theorem State.memWrite_ecaddr : (s.memWrite a V).ecaddr = s.ecaddr := rfl
@[simp] theorem State.memWrite_arg0 : (s.memWrite a V).arg0 = s.arg0 := rfl
@[simp] theorem State.memWrite_arg1 : (s.memWrite a V).arg1 = s.arg1 := rfl
@[simp] theorem State.memWrite_result0 : (s.memWrite a V).result0 = s.result0 := rfl
@[simp] theorem State.memWrite_result1 : (s.memWrite a V).result1 = s.result1 := rfl
@[simp] theorem State.memWrite_crcinit : (s.memWrite a V).crcinit = s.crcinit := rfl
@[simp] theorem State.memWrite_lat : (s.memWrite a V).lat = s.lat := rfl
@[simp] theorem State.memWrite_buf : (s.memWrite a V).buf = s.buf.write a V := rfl
@[simp] theorem State.memWrite_rdata : (s.memWrite a V).rdata = s.rdata := rfl
@[simp] theorem State.memWrite_rstn : (s.memWrite a V).rstn = s.rstn := rfl
@[simp] theorem State.memWrite_prog : (s.memWrite a V).prog = s.prog := rfl
@[simp] theorem State.memWrite_pos : (s.memWrite a V).pos = s.pos := rfl
@[simp] theorem State.memWrite_rstIn : (s.memWrite a V).rstIn = s.rstIn := rfl
@[simp] theorem State.memWrite_wait : (s.memWrite a V).wait = s.wait := rfl
@[simp] theorem State.memWrite_latencies : (s.memWrite a V).latencies = s.latencies := rfl
@[simp] theorem State.memWrite_issues : (s.memWrite a V).issues = s.issues := rfl
@[simp] theorem State.memWrite_resets : (s.memWrite a V).resets = s.resets := rfl

end

section
variable (s : State) (c : BitVec 4)

@[simp] theorem State.completeWith_ctrl : (s.completeWith c).ctrl = s.ctrl := rfl
@[simp] theorem State.completeWith_status : (s.completeWith c).status = s.status.complete c := rfl
@[simp] theorem State.completeWith_cmd : (s.completeWith c).cmd = s.cmd := rfl
@[simp] theorem State.completeWith_src : (s.completeWith c).src = s.src := rfl
@[simp] theorem State.completeWith_dst : (s.completeWith c).dst = s.dst := rfl
@[simp] theorem State.completeWith_len : (s.completeWith c).len = s.len := rfl
@[simp] theorem State.completeWith_ecaddr : (s.completeWith c).ecaddr = s.ecaddr := rfl
@[simp] theorem State.completeWith_arg0 : (s.completeWith c).arg0 = s.arg0 := rfl
@[simp] theorem State.completeWith_arg1 : (s.completeWith c).arg1 = s.arg1 := rfl
@[simp] theorem State.completeWith_result0 : (s.completeWith c).result0 = s.result0 := rfl
@[simp] theorem State.completeWith_result1 : (s.completeWith c).result1 = s.result1 := rfl
@[simp] theorem State.completeWith_crcinit : (s.completeWith c).crcinit = s.crcinit := rfl
@[simp] theorem State.completeWith_lat : (s.completeWith c).lat = s.lat := rfl
@[simp] theorem State.completeWith_buf : (s.completeWith c).buf = s.buf := rfl
@[simp] theorem State.completeWith_rdata : (s.completeWith c).rdata = s.rdata := rfl
@[simp] theorem State.completeWith_rstn : (s.completeWith c).rstn = s.rstn := rfl
@[simp] theorem State.completeWith_prog : (s.completeWith c).prog = s.prog := rfl
@[simp] theorem State.completeWith_pos : (s.completeWith c).pos = s.pos := rfl
@[simp] theorem State.completeWith_rstIn : (s.completeWith c).rstIn = s.rstIn := rfl
@[simp] theorem State.completeWith_wait : (s.completeWith c).wait = s.wait := rfl
@[simp] theorem State.completeWith_latencies : (s.completeWith c).latencies = s.latencies := rfl
@[simp] theorem State.completeWith_issues : (s.completeWith c).issues = s.issues := rfl
@[simp] theorem State.completeWith_resets : (s.completeWith c).resets = s.resets := rfl

end

section
variable (s : State) (w : Word)

@[simp] theorem State.writeStatus_ctrl : (s.writeStatus w).ctrl = s.ctrl := rfl
@[simp] theorem State.writeStatus_status : (s.writeStatus w).status = s.status.hostWrite w := rfl
@[simp] theorem State.writeStatus_cmd : (s.writeStatus w).cmd = s.cmd := rfl
@[simp] theorem State.writeStatus_src : (s.writeStatus w).src = s.src := rfl
@[simp] theorem State.writeStatus_dst : (s.writeStatus w).dst = s.dst := rfl
@[simp] theorem State.writeStatus_len : (s.writeStatus w).len = s.len := rfl
@[simp] theorem State.writeStatus_ecaddr : (s.writeStatus w).ecaddr = s.ecaddr := rfl
@[simp] theorem State.writeStatus_arg0 : (s.writeStatus w).arg0 = s.arg0 := rfl
@[simp] theorem State.writeStatus_arg1 : (s.writeStatus w).arg1 = s.arg1 := rfl
@[simp] theorem State.writeStatus_result0 : (s.writeStatus w).result0 = s.result0 := rfl
@[simp] theorem State.writeStatus_result1 : (s.writeStatus w).result1 = s.result1 := rfl
@[simp] theorem State.writeStatus_crcinit : (s.writeStatus w).crcinit = s.crcinit := rfl
@[simp] theorem State.writeStatus_lat : (s.writeStatus w).lat = s.lat := rfl
@[simp] theorem State.writeStatus_buf : (s.writeStatus w).buf = s.buf := rfl
@[simp] theorem State.writeStatus_rdata : (s.writeStatus w).rdata = s.rdata := rfl
@[simp] theorem State.writeStatus_rstn : (s.writeStatus w).rstn = s.rstn := rfl
@[simp] theorem State.writeStatus_prog : (s.writeStatus w).prog = s.prog := rfl
@[simp] theorem State.writeStatus_pos : (s.writeStatus w).pos = s.pos := rfl
@[simp] theorem State.writeStatus_rstIn : (s.writeStatus w).rstIn = s.rstIn := rfl
@[simp] theorem State.writeStatus_wait : (s.writeStatus w).wait = s.wait := rfl
@[simp] theorem State.writeStatus_latencies : (s.writeStatus w).latencies = s.latencies := rfl
@[simp] theorem State.writeStatus_issues : (s.writeStatus w).issues = s.issues := rfl
@[simp] theorem State.writeStatus_resets : (s.writeStatus w).resets = s.resets := rfl

end

section
variable (s : State) (r0 r1 : Word)

@[simp] theorem State.setResults_ctrl : (s.setResults r0 r1).ctrl = s.ctrl := rfl
@[simp] theorem State.setResults_status : (s.setResults r0 r1).status = s.status := rfl
@[simp] theorem State.setResults_cmd : (s.setResults r0 r1).cmd = s.cmd := rfl
@[simp] theorem State.setResults_src : (s.setResults r0 r1).src = s.src := rfl
@[simp] theorem State.setResults_dst : (s.setResults r0 r1).dst = s.dst := rfl
@[simp] theorem State.setResults_len : (s.setResults r0 r1).len = s.len := rfl
@[simp] theorem State.setResults_ecaddr : (s.setResults r0 r1).ecaddr = s.ecaddr := rfl
@[simp] theorem State.setResults_arg0 : (s.setResults r0 r1).arg0 = s.arg0 := rfl
@[simp] theorem State.setResults_arg1 : (s.setResults r0 r1).arg1 = s.arg1 := rfl
@[simp] theorem State.setResults_result0 : (s.setResults r0 r1).result0 = r0 := rfl
@[simp] theorem State.setResults_result1 : (s.setResults r0 r1).result1 = r1 := rfl
@[simp] theorem State.setResults_crcinit : (s.setResults r0 r1).crcinit = s.crcinit := rfl
@[simp] theorem State.setResults_lat : (s.setResults r0 r1).lat = s.lat := rfl
@[simp] theorem State.setResults_buf : (s.setResults r0 r1).buf = s.buf := rfl
@[simp] theorem State.setResults_rdata : (s.setResults r0 r1).rdata = s.rdata := rfl
@[simp] theorem State.setResults_rstn : (s.setResults r0 r1).rstn = s.rstn := rfl
@[simp] theorem State.setResults_prog : (s.setResults r0 r1).prog = s.prog := rfl
@[simp] theorem State.setResults_pos : (s.setResults r0 r1).pos = s.pos := rfl
@[simp] theorem State.setResults_rstIn : (s.setResults r0 r1).rstIn = s.rstIn := rfl
@[simp] theorem State.setResults_wait : (s.setResults r0 r1).wait = s.wait := rfl
@[simp] theorem State.setResults_latencies : (s.setResults r0 r1).latencies = s.latencies := rfl
@[simp] theorem State.setResults_issues : (s.setResults r0 r1).issues = s.issues := rfl
@[simp] theorem State.setResults_resets : (s.setResults r0 r1).resets = s.resets := rfl

end

section
variable (s : State) (b : Bool)

@[simp] theorem State.setSync_ctrl : (s.setSync b).ctrl = s.ctrl := rfl
@[simp] theorem State.setSync_status : (s.setSync b).status = { s.status with sync := b } := rfl
@[simp] theorem State.setSync_cmd : (s.setSync b).cmd = s.cmd := rfl
@[simp] theorem State.setSync_src : (s.setSync b).src = s.src := rfl
@[simp] theorem State.setSync_dst : (s.setSync b).dst = s.dst := rfl
@[simp] theorem State.setSync_len : (s.setSync b).len = s.len := rfl
@[simp] theorem State.setSync_ecaddr : (s.setSync b).ecaddr = s.ecaddr := rfl
@[simp] theorem State.setSync_arg0 : (s.setSync b).arg0 = s.arg0 := rfl
@[simp] theorem State.setSync_arg1 : (s.setSync b).arg1 = s.arg1 := rfl
@[simp] theorem State.setSync_result0 : (s.setSync b).result0 = s.result0 := rfl
@[simp] theorem State.setSync_result1 : (s.setSync b).result1 = s.result1 := rfl
@[simp] theorem State.setSync_crcinit : (s.setSync b).crcinit = s.crcinit := rfl
@[simp] theorem State.setSync_lat : (s.setSync b).lat = s.lat := rfl
@[simp] theorem State.setSync_buf : (s.setSync b).buf = s.buf := rfl
@[simp] theorem State.setSync_rdata : (s.setSync b).rdata = s.rdata := rfl
@[simp] theorem State.setSync_rstn : (s.setSync b).rstn = s.rstn := rfl
@[simp] theorem State.setSync_prog : (s.setSync b).prog = s.prog := rfl
@[simp] theorem State.setSync_pos : (s.setSync b).pos = s.pos := rfl
@[simp] theorem State.setSync_rstIn : (s.setSync b).rstIn = s.rstIn := rfl
@[simp] theorem State.setSync_wait : (s.setSync b).wait = s.wait := rfl
@[simp] theorem State.setSync_latencies : (s.setSync b).latencies = s.latencies := rfl
@[simp] theorem State.setSync_issues : (s.setSync b).issues = s.issues := rfl
@[simp] theorem State.setSync_resets : (s.setSync b).resets = s.resets := rfl

end

section
variable (s : State) (b : Bool)

@[simp] theorem State.setCrcOk_ctrl : (s.setCrcOk b).ctrl = s.ctrl := rfl
@[simp] theorem State.setCrcOk_status : (s.setCrcOk b).status = { s.status with crcOk := b } := rfl
@[simp] theorem State.setCrcOk_cmd : (s.setCrcOk b).cmd = s.cmd := rfl
@[simp] theorem State.setCrcOk_src : (s.setCrcOk b).src = s.src := rfl
@[simp] theorem State.setCrcOk_dst : (s.setCrcOk b).dst = s.dst := rfl
@[simp] theorem State.setCrcOk_len : (s.setCrcOk b).len = s.len := rfl
@[simp] theorem State.setCrcOk_ecaddr : (s.setCrcOk b).ecaddr = s.ecaddr := rfl
@[simp] theorem State.setCrcOk_arg0 : (s.setCrcOk b).arg0 = s.arg0 := rfl
@[simp] theorem State.setCrcOk_arg1 : (s.setCrcOk b).arg1 = s.arg1 := rfl
@[simp] theorem State.setCrcOk_result0 : (s.setCrcOk b).result0 = s.result0 := rfl
@[simp] theorem State.setCrcOk_result1 : (s.setCrcOk b).result1 = s.result1 := rfl
@[simp] theorem State.setCrcOk_crcinit : (s.setCrcOk b).crcinit = s.crcinit := rfl
@[simp] theorem State.setCrcOk_lat : (s.setCrcOk b).lat = s.lat := rfl
@[simp] theorem State.setCrcOk_buf : (s.setCrcOk b).buf = s.buf := rfl
@[simp] theorem State.setCrcOk_rdata : (s.setCrcOk b).rdata = s.rdata := rfl
@[simp] theorem State.setCrcOk_rstn : (s.setCrcOk b).rstn = s.rstn := rfl
@[simp] theorem State.setCrcOk_prog : (s.setCrcOk b).prog = s.prog := rfl
@[simp] theorem State.setCrcOk_pos : (s.setCrcOk b).pos = s.pos := rfl
@[simp] theorem State.setCrcOk_rstIn : (s.setCrcOk b).rstIn = s.rstIn := rfl
@[simp] theorem State.setCrcOk_wait : (s.setCrcOk b).wait = s.wait := rfl
@[simp] theorem State.setCrcOk_latencies : (s.setCrcOk b).latencies = s.latencies := rfl
@[simp] theorem State.setCrcOk_issues : (s.setCrcOk b).issues = s.issues := rfl
@[simp] theorem State.setCrcOk_resets : (s.setCrcOk b).resets = s.resets := rfl

end

section
variable (s : State) (b : Bool)

@[simp] theorem State.setUncorr_ctrl : (s.setUncorr b).ctrl = s.ctrl := rfl
@[simp] theorem State.setUncorr_status : (s.setUncorr b).status = { s.status with uncorr := b } := rfl
@[simp] theorem State.setUncorr_cmd : (s.setUncorr b).cmd = s.cmd := rfl
@[simp] theorem State.setUncorr_src : (s.setUncorr b).src = s.src := rfl
@[simp] theorem State.setUncorr_dst : (s.setUncorr b).dst = s.dst := rfl
@[simp] theorem State.setUncorr_len : (s.setUncorr b).len = s.len := rfl
@[simp] theorem State.setUncorr_ecaddr : (s.setUncorr b).ecaddr = s.ecaddr := rfl
@[simp] theorem State.setUncorr_arg0 : (s.setUncorr b).arg0 = s.arg0 := rfl
@[simp] theorem State.setUncorr_arg1 : (s.setUncorr b).arg1 = s.arg1 := rfl
@[simp] theorem State.setUncorr_result0 : (s.setUncorr b).result0 = s.result0 := rfl
@[simp] theorem State.setUncorr_result1 : (s.setUncorr b).result1 = s.result1 := rfl
@[simp] theorem State.setUncorr_crcinit : (s.setUncorr b).crcinit = s.crcinit := rfl
@[simp] theorem State.setUncorr_lat : (s.setUncorr b).lat = s.lat := rfl
@[simp] theorem State.setUncorr_buf : (s.setUncorr b).buf = s.buf := rfl
@[simp] theorem State.setUncorr_rdata : (s.setUncorr b).rdata = s.rdata := rfl
@[simp] theorem State.setUncorr_rstn : (s.setUncorr b).rstn = s.rstn := rfl
@[simp] theorem State.setUncorr_prog : (s.setUncorr b).prog = s.prog := rfl
@[simp] theorem State.setUncorr_pos : (s.setUncorr b).pos = s.pos := rfl
@[simp] theorem State.setUncorr_rstIn : (s.setUncorr b).rstIn = s.rstIn := rfl
@[simp] theorem State.setUncorr_wait : (s.setUncorr b).wait = s.wait := rfl
@[simp] theorem State.setUncorr_latencies : (s.setUncorr b).latencies = s.latencies := rfl
@[simp] theorem State.setUncorr_issues : (s.setUncorr b).issues = s.issues := rfl
@[simp] theorem State.setUncorr_resets : (s.setUncorr b).resets = s.resets := rfl

end

section
variable (s : State) (w : Word) (n : Nat)

@[simp] theorem State.take_ctrl : (s.take w n).ctrl = s.ctrl := rfl
@[simp] theorem State.take_status : (s.take w n).status = s.status.issue := rfl
@[simp] theorem State.take_cmd : (s.take w n).cmd = w := rfl
@[simp] theorem State.take_src : (s.take w n).src = s.src := rfl
@[simp] theorem State.take_dst : (s.take w n).dst = s.dst := rfl
@[simp] theorem State.take_len : (s.take w n).len = s.len := rfl
@[simp] theorem State.take_ecaddr : (s.take w n).ecaddr = s.ecaddr := rfl
@[simp] theorem State.take_arg0 : (s.take w n).arg0 = s.arg0 := rfl
@[simp] theorem State.take_arg1 : (s.take w n).arg1 = s.arg1 := rfl
@[simp] theorem State.take_result0 : (s.take w n).result0 = s.result0 := rfl
@[simp] theorem State.take_result1 : (s.take w n).result1 = s.result1 := rfl
@[simp] theorem State.take_crcinit : (s.take w n).crcinit = s.crcinit := rfl
@[simp] theorem State.take_lat : (s.take w n).lat = s.snapshot w := rfl
@[simp] theorem State.take_buf : (s.take w n).buf = s.buf := rfl
@[simp] theorem State.take_rdata : (s.take w n).rdata = s.rdata := rfl
@[simp] theorem State.take_rstn : (s.take w n).rstn = s.rstn := rfl
@[simp] theorem State.take_prog : (s.take w n).prog = s.prog := rfl
@[simp] theorem State.take_pos : (s.take w n).pos = s.pos := rfl
@[simp] theorem State.take_rstIn : (s.take w n).rstIn = s.rstIn := rfl
@[simp] theorem State.take_wait : (s.take w n).wait = n := rfl
@[simp] theorem State.take_latencies : (s.take w n).latencies = s.latencies := rfl
@[simp] theorem State.take_issues : (s.take w n).issues = s.issues := rfl
@[simp] theorem State.take_resets : (s.take w n).resets = s.resets := rfl

end

section
variable (s : State) (w : Word)

@[simp] theorem State.issue_ctrl : (s.issue w).ctrl = s.ctrl := rfl
@[simp] theorem State.issue_status : (s.issue w).status = s.status.issue := rfl
@[simp] theorem State.issue_cmd : (s.issue w).cmd = w := rfl
@[simp] theorem State.issue_src : (s.issue w).src = s.src := rfl
@[simp] theorem State.issue_dst : (s.issue w).dst = s.dst := rfl
@[simp] theorem State.issue_len : (s.issue w).len = s.len := rfl
@[simp] theorem State.issue_ecaddr : (s.issue w).ecaddr = s.ecaddr := rfl
@[simp] theorem State.issue_arg0 : (s.issue w).arg0 = s.arg0 := rfl
@[simp] theorem State.issue_arg1 : (s.issue w).arg1 = s.arg1 := rfl
@[simp] theorem State.issue_result0 : (s.issue w).result0 = s.result0 := rfl
@[simp] theorem State.issue_result1 : (s.issue w).result1 = s.result1 := rfl
@[simp] theorem State.issue_crcinit : (s.issue w).crcinit = s.crcinit := rfl
@[simp] theorem State.issue_lat : (s.issue w).lat = s.snapshot w := rfl
@[simp] theorem State.issue_buf : (s.issue w).buf = s.buf := rfl
@[simp] theorem State.issue_rdata : (s.issue w).rdata = s.rdata := rfl
@[simp] theorem State.issue_rstn : (s.issue w).rstn = s.rstn := rfl
@[simp] theorem State.issue_prog : (s.issue w).prog = s.prog := rfl
@[simp] theorem State.issue_pos : (s.issue w).pos = s.pos := rfl
@[simp] theorem State.issue_rstIn : (s.issue w).rstIn = s.rstIn := rfl
@[simp] theorem State.issue_wait : (s.issue w).wait = s.nextLatency (s.snapshot w) - 1 := rfl
@[simp] theorem State.issue_latencies : (s.issue w).latencies = s.latencies.tail := rfl
@[simp] theorem State.issue_issues : (s.issue w).issues = s.issues + 1 := rfl
@[simp] theorem State.issue_resets : (s.issue w).resets = s.resets := rfl

end

section
variable (s : State)

@[simp] theorem State.sampled_ctrl : s.sampled.ctrl = s.ctrl := rfl
@[simp] theorem State.sampled_status : s.sampled.status = s.status := rfl
@[simp] theorem State.sampled_cmd : s.sampled.cmd = s.cmd := rfl
@[simp] theorem State.sampled_src : s.sampled.src = s.src := rfl
@[simp] theorem State.sampled_dst : s.sampled.dst = s.dst := rfl
@[simp] theorem State.sampled_len : s.sampled.len = s.len := rfl
@[simp] theorem State.sampled_ecaddr : s.sampled.ecaddr = s.ecaddr := rfl
@[simp] theorem State.sampled_arg0 : s.sampled.arg0 = s.arg0 := rfl
@[simp] theorem State.sampled_arg1 : s.sampled.arg1 = s.arg1 := rfl
@[simp] theorem State.sampled_result0 : s.sampled.result0 = s.result0 := rfl
@[simp] theorem State.sampled_result1 : s.sampled.result1 = s.result1 := rfl
@[simp] theorem State.sampled_crcinit : s.sampled.crcinit = s.crcinit := rfl
@[simp] theorem State.sampled_lat : s.sampled.lat = s.lat := rfl
@[simp] theorem State.sampled_buf : s.sampled.buf = s.buf := rfl
@[simp] theorem State.sampled_rdata : s.sampled.rdata = s.rdata := rfl
@[simp] theorem State.sampled_rstn : s.sampled.rstn = s.rstn := rfl
@[simp] theorem State.sampled_prog : s.sampled.prog = s.prog := rfl
@[simp] theorem State.sampled_pos : s.sampled.pos = s.pos := rfl
@[simp] theorem State.sampled_rstIn : s.sampled.rstIn = s.rstIn.tail := rfl
@[simp] theorem State.sampled_wait : s.sampled.wait = s.wait := rfl
@[simp] theorem State.sampled_latencies : s.sampled.latencies = s.latencies := rfl
@[simp] theorem State.sampled_issues : s.sampled.issues = s.issues := rfl
@[simp] theorem State.sampled_resets : s.sampled.resets = s.resets := rfl

end

section
variable (s : State)

@[simp] theorem State.heldInReset_ctrl : s.heldInReset.ctrl = s.ctrl := rfl
@[simp] theorem State.heldInReset_status : s.heldInReset.status = s.status := rfl
@[simp] theorem State.heldInReset_cmd : s.heldInReset.cmd = s.cmd := rfl
@[simp] theorem State.heldInReset_src : s.heldInReset.src = s.src := rfl
@[simp] theorem State.heldInReset_dst : s.heldInReset.dst = s.dst := rfl
@[simp] theorem State.heldInReset_len : s.heldInReset.len = s.len := rfl
@[simp] theorem State.heldInReset_ecaddr : s.heldInReset.ecaddr = s.ecaddr := rfl
@[simp] theorem State.heldInReset_arg0 : s.heldInReset.arg0 = s.arg0 := rfl
@[simp] theorem State.heldInReset_arg1 : s.heldInReset.arg1 = s.arg1 := rfl
@[simp] theorem State.heldInReset_result0 : s.heldInReset.result0 = s.result0 := rfl
@[simp] theorem State.heldInReset_result1 : s.heldInReset.result1 = s.result1 := rfl
@[simp] theorem State.heldInReset_crcinit : s.heldInReset.crcinit = s.crcinit := rfl
@[simp] theorem State.heldInReset_lat : s.heldInReset.lat = s.lat := rfl
@[simp] theorem State.heldInReset_buf : s.heldInReset.buf = s.buf := rfl
@[simp] theorem State.heldInReset_rdata : s.heldInReset.rdata = s.rdata := rfl
@[simp] theorem State.heldInReset_rstn : s.heldInReset.rstn = false := rfl
@[simp] theorem State.heldInReset_prog : s.heldInReset.prog = s.prog := rfl
@[simp] theorem State.heldInReset_pos : s.heldInReset.pos = s.pos := rfl
@[simp] theorem State.heldInReset_rstIn : s.heldInReset.rstIn = s.rstIn := rfl
@[simp] theorem State.heldInReset_wait : s.heldInReset.wait = s.wait := rfl
@[simp] theorem State.heldInReset_latencies : s.heldInReset.latencies = s.latencies := rfl
@[simp] theorem State.heldInReset_issues : s.heldInReset.issues = s.issues := rfl
@[simp] theorem State.heldInReset_resets : s.heldInReset.resets = s.resets := rfl

end

section
variable (s : State)

@[simp] theorem State.tick_ctrl : s.tick.ctrl = s.ctrl := rfl
@[simp] theorem State.tick_status : s.tick.status = s.status := rfl
@[simp] theorem State.tick_cmd : s.tick.cmd = s.cmd := rfl
@[simp] theorem State.tick_src : s.tick.src = s.src := rfl
@[simp] theorem State.tick_dst : s.tick.dst = s.dst := rfl
@[simp] theorem State.tick_len : s.tick.len = s.len := rfl
@[simp] theorem State.tick_ecaddr : s.tick.ecaddr = s.ecaddr := rfl
@[simp] theorem State.tick_arg0 : s.tick.arg0 = s.arg0 := rfl
@[simp] theorem State.tick_arg1 : s.tick.arg1 = s.arg1 := rfl
@[simp] theorem State.tick_result0 : s.tick.result0 = s.result0 := rfl
@[simp] theorem State.tick_result1 : s.tick.result1 = s.result1 := rfl
@[simp] theorem State.tick_crcinit : s.tick.crcinit = s.crcinit := rfl
@[simp] theorem State.tick_lat : s.tick.lat = s.lat := rfl
@[simp] theorem State.tick_buf : s.tick.buf = s.buf := rfl
@[simp] theorem State.tick_rdata : s.tick.rdata = s.rdata := rfl
@[simp] theorem State.tick_rstn : s.tick.rstn = s.rstn := rfl
@[simp] theorem State.tick_prog : s.tick.prog = s.prog := rfl
@[simp] theorem State.tick_pos : s.tick.pos = s.pos := rfl
@[simp] theorem State.tick_rstIn : s.tick.rstIn = s.rstIn := rfl
@[simp] theorem State.tick_wait : s.tick.wait = s.wait - 1 := rfl
@[simp] theorem State.tick_latencies : s.tick.latencies = s.latencies := rfl
@[simp] theorem State.tick_issues : s.tick.issues = s.issues := rfl
@[simp] theorem State.tick_resets : s.tick.resets = s.resets := rfl

end

section
variable (s : State)

@[simp] theorem State.takeReset_ctrl : s.takeReset.ctrl = State.reset.ctrl := rfl
@[simp] theorem State.takeReset_status : s.takeReset.status = State.reset.status := rfl
@[simp] theorem State.takeReset_cmd : s.takeReset.cmd = State.reset.cmd := rfl
@[simp] theorem State.takeReset_src : s.takeReset.src = State.reset.src := rfl
@[simp] theorem State.takeReset_dst : s.takeReset.dst = State.reset.dst := rfl
@[simp] theorem State.takeReset_len : s.takeReset.len = State.reset.len := rfl
@[simp] theorem State.takeReset_ecaddr : s.takeReset.ecaddr = State.reset.ecaddr := rfl
@[simp] theorem State.takeReset_arg0 : s.takeReset.arg0 = State.reset.arg0 := rfl
@[simp] theorem State.takeReset_arg1 : s.takeReset.arg1 = State.reset.arg1 := rfl
@[simp] theorem State.takeReset_result0 : s.takeReset.result0 = State.reset.result0 := rfl
@[simp] theorem State.takeReset_result1 : s.takeReset.result1 = State.reset.result1 := rfl
@[simp] theorem State.takeReset_crcinit : s.takeReset.crcinit = State.reset.crcinit := rfl
@[simp] theorem State.takeReset_lat : s.takeReset.lat = State.reset.lat := rfl
@[simp] theorem State.takeReset_buf : s.takeReset.buf = State.reset.buf := rfl
@[simp] theorem State.takeReset_rdata : s.takeReset.rdata = s.rdata := rfl
@[simp] theorem State.takeReset_rstn : s.takeReset.rstn = State.reset.rstn := rfl
@[simp] theorem State.takeReset_prog : s.takeReset.prog = s.prog := rfl
@[simp] theorem State.takeReset_pos : s.takeReset.pos = s.pos := rfl
@[simp] theorem State.takeReset_rstIn : s.takeReset.rstIn = s.rstIn := rfl
@[simp] theorem State.takeReset_wait : s.takeReset.wait = State.reset.wait := rfl
@[simp] theorem State.takeReset_latencies : s.takeReset.latencies = s.latencies := rfl
@[simp] theorem State.takeReset_issues : s.takeReset.issues = s.issues := rfl
@[simp] theorem State.takeReset_resets : s.takeReset.resets = s.resets + 1 := rfl

end

section
variable (t : Status) (w : Word)

@[simp] theorem Status.hostWrite_busy : (t.hostWrite w).busy = t.busy := rfl
@[simp] theorem Status.hostWrite_done : (t.hostWrite w).done = (t.done && !w.getLsbD 1) := rfl
@[simp] theorem Status.hostWrite_sync : (t.hostWrite w).sync = t.sync := rfl
@[simp] theorem Status.hostWrite_crcOk : (t.hostWrite w).crcOk = t.crcOk := rfl
@[simp] theorem Status.hostWrite_uncorr : (t.hostWrite w).uncorr = t.uncorr := rfl
@[simp] theorem Status.hostWrite_ovr : (t.hostWrite w).ovr = (t.ovr && !w.getLsbD 5) := rfl
@[simp] theorem Status.hostWrite_err : (t.hostWrite w).err = t.err := rfl

end

section
variable (t : Status)

@[simp] theorem Status.issue_busy : t.issue.busy = true := rfl
@[simp] theorem Status.issue_done : t.issue.done = false := rfl
@[simp] theorem Status.issue_sync : t.issue.sync = t.sync := rfl
@[simp] theorem Status.issue_crcOk : t.issue.crcOk = t.crcOk := rfl
@[simp] theorem Status.issue_uncorr : t.issue.uncorr = t.uncorr := rfl
@[simp] theorem Status.issue_ovr : t.issue.ovr = t.ovr := rfl
@[simp] theorem Status.issue_err : t.issue.err = errNone := rfl

end

section
variable (t : Status)

@[simp] theorem Status.overrun_busy : t.overrun.busy = t.busy := rfl
@[simp] theorem Status.overrun_done : t.overrun.done = t.done := rfl
@[simp] theorem Status.overrun_sync : t.overrun.sync = t.sync := rfl
@[simp] theorem Status.overrun_crcOk : t.overrun.crcOk = t.crcOk := rfl
@[simp] theorem Status.overrun_uncorr : t.overrun.uncorr = t.uncorr := rfl
@[simp] theorem Status.overrun_ovr : t.overrun.ovr = true := rfl
@[simp] theorem Status.overrun_err : t.overrun.err = t.err := rfl

end

section
variable (t : Status) (c : BitVec 4)

@[simp] theorem Status.complete_busy : (t.complete c).busy = false := rfl
@[simp] theorem Status.complete_done : (t.complete c).done = true := rfl
@[simp] theorem Status.complete_sync : (t.complete c).sync = t.sync := rfl
@[simp] theorem Status.complete_crcOk : (t.complete c).crcOk = t.crcOk := rfl
@[simp] theorem Status.complete_uncorr : (t.complete c).uncorr = t.uncorr := rfl
@[simp] theorem Status.complete_ovr : (t.complete c).ovr = t.ovr := rfl
@[simp] theorem Status.complete_err : (t.complete c).err = c := rfl

end

end Sys2Proof.Machine
end

