-- ==== Sys2Proof/Laws/Ops.lean ====
section
/-! SUPPORT. For each shared operation, what it can do, said once. -/

namespace Sys2Proof.Machine

/-! ### BUF -/

theorem mem_cellsFrom {a : Nat} {V : List Byte} {c : Host.Cell} (h : c ∈ cellsFrom a V) :
    a ≤ c.1 ∧ c.1 < a + V.length := by
  simp only [cellsFrom, List.mem_mapIdx] at h
  obtain ⟨i, hi, rfl⟩ := h
  constructor <;> simp only <;> omega

theorem cellsFrom_cons (a : Nat) (b : Byte) (V : List Byte) :
    cellsFrom a (b :: V) = (a, b) :: cellsFrom (a + 1) V := by
  simp [cellsFrom, List.mapIdx_cons, Nat.add_comm, Nat.add_left_comm]

theorem lookup_cellsFrom (V : List Byte) : ∀ a x : Nat,
    (cellsFrom a V).lookup x = if a ≤ x then V[x - a]? else none := by
  induction V with
  | nil => intro a x; simp [cellsFrom]
  | cons b V ih =>
    intro a x
    rw [cellsFrom_cons, List.lookup_cons, ih]
    by_cases h : x = a
    · subst h; simp
    · have hb : (x == a) = false := by simpa using h
      rw [hb]
      by_cases hle : a ≤ x
      · obtain ⟨k, rfl⟩ : ∃ k, x = a + 1 + k := ⟨x - (a + 1), by omega⟩
        simp [show a + 1 + k - a = k + 1 by omega, show a ≤ a + 1 + k by omega]
      · simp [hle, show ¬ a + 1 ≤ x by omega]

theorem lookup_filter_of_keep {m : Memory} {p : Host.Cell → Bool} {x : Nat} (h : ∀ b, p (x, b) = true) :
    (m.filter p).lookup x = m.lookup x := by
  induction m with
  | nil => rfl
  | cons c m ih =>
    obtain ⟨a, b⟩ := c
    by_cases hx : x = a
    · subst hx; simp [h]
    · have hb : (x == a) = false := by simpa using hx
      by_cases hp : p (a, b) = true <;> simp [hp, List.lookup_cons, hb, ih]

theorem lookup_eq_none_of_forall {m : Memory} {x : Nat} (h : ∀ c ∈ m, c.1 ≠ x) : m.lookup x = none := by
  induction m with
  | nil => rfl
  | cons c m ih =>
    obtain ⟨a, b⟩ := c
    have hb : (x == a) = false := by simpa using (h (a, b) (by simp)).symm
    rw [List.lookup_cons, hb]
    exact ih fun c hc => h c (by simp [hc])

/-- Reading a byte after a write: the byte written where the region lies, the old byte elsewhere. -/
theorem Memory.get?_write (m : Memory) (a : Nat) (V : List Byte) {x : Nat} (hx : x < 1024) :
    (Memory.write m a V).get? x = if a ≤ x ∧ x < a + V.length then V[x - a]? else Memory.get? m x := by
  simp only [Memory.write, Memory.get?, List.lookup_append, lookup_cellsFrom, Config.bufBytes]
  by_cases h1 : x < a
  · rw [lookup_filter_of_keep (p := fun c => decide (c.1 < a)) (by simp [h1]),
      lookup_eq_none_of_forall (m := m.filter fun c => decide (a + V.length ≤ c.1))
        (by simp only [List.mem_filter, decide_eq_true_eq]; rintro c ⟨-, hc⟩; omega)]
    simp [show ¬ a ≤ x by omega]
  · rw [lookup_eq_none_of_forall (m := m.filter fun c => decide (c.1 < a))
        (by simp only [List.mem_filter, decide_eq_true_eq]; rintro c ⟨-, hc⟩; omega)]
    by_cases h2 : x < a + V.length
    · have h3 : V[x - a]? = some V[x - a] := List.getElem?_eq_getElem (by omega)
      simp [show a ≤ x by omega, h2, show x - a < 1024 - a by omega, h3]
    · rw [lookup_filter_of_keep (p := fun c => decide (a + V.length ≤ c.1)) (by simp; omega)]
      have h3 : V[x - a]? = none := List.getElem?_eq_none (by omega)
      simp [show a ≤ x by omega, h2, List.getElem?_take, h3]

theorem pairwise_cellsFrom (V : List Byte) : ∀ a, (cellsFrom a V).Pairwise fun x y => x.1 < y.1 := by
  induction V with
  | nil => intro a; simp [cellsFrom]
  | cons b V ih =>
    intro a
    rw [cellsFrom_cons, List.pairwise_cons]
    refine ⟨fun c hc => ?_, ih _⟩
    have := (mem_cellsFrom hc).1
    simp only; omega

theorem Memory.wf_iff (m : Memory) :
    Memory.wf m = true ↔ (m.Pairwise fun x y => x.1 < y.1) ∧ ∀ c ∈ m, c.1 < 1024 := by
  simp [Memory.wf, Config.bufBytes]

@[simp] theorem Memory.wf_nil : Memory.wf [] = true := rfl

/-- A write keeps the canonical form of BUF. -/
theorem Memory.wf_write {m : Memory} (a : Nat) (V : List Byte) (h : Memory.wf m = true) :
    Memory.wf (Memory.write m a V) = true := by
  rw [Memory.wf_iff] at h ⊢
  obtain ⟨hp, hb⟩ := h
  have hcell : ∀ c ∈ cellsFrom a (V.take (1024 - a)), a ≤ c.1 ∧ c.1 < a + V.length ∧ c.1 < 1024 := by
    intro c hc
    have := mem_cellsFrom hc
    simp only [List.length_take] at this
    omega
  simp only [Memory.write, Config.bufBytes, List.pairwise_append, List.mem_append, List.mem_filter, decide_eq_true_eq]
  refine ⟨⟨⟨hp.filter _, pairwise_cellsFrom _ _, ?_⟩, hp.filter _, ?_⟩, ?_⟩
  · rintro x ⟨-, hx⟩ y hy; have := hcell y hy; omega
  · rintro x (⟨-, hx⟩ | hx) y ⟨-, hy⟩
    · omega
    · have := hcell x hx; omega
  · rintro x ((⟨hx, -⟩ | hx) | ⟨hx, -⟩)
    · exact hb x hx
    · exact (hcell x hx).2.2
    · exact hb x hx

/-- A byte read depends on BUF and the free contents only. -/
theorem State.byteAt_congr {s t : State} (hb : t.buf = s.buf) (hr : t.resets = s.resets) (a : Nat) :
    t.byteAt a = s.byteAt a := by
  simp only [State.byteAt, hb, hr]

/-- The byte at an address after MemWrite. -/
theorem State.byteAt_memWrite (s : State) (a : Nat) (V : List Byte) {x : Nat} (hx : x < 1024) :
    (s.memWrite a V).byteAt x = if a ≤ x ∧ x < a + V.length then V.getD (x - a) 0 else s.byteAt x := by
  simp only [State.byteAt, State.memWrite_buf, State.memWrite_resets, Memory.get?_write _ _ _ hx]
  split
  · next h =>
    have h3 : V[x - a]? = some V[x - a] := List.getElem?_eq_getElem (by omega)
    simp [h3]
  · rfl

@[simp] theorem State.byteAt_completeWith (s : State) (c : BitVec 4) (a : Nat) :
    (s.completeWith c).byteAt a = s.byteAt a := rfl
@[simp] theorem State.byteAt_setResults (s : State) (r0 r1 : Word) (a : Nat) :
    (s.setResults r0 r1).byteAt a = s.byteAt a := rfl
@[simp] theorem State.byteAt_setSync (s : State) (b : Bool) (a : Nat) : (s.setSync b).byteAt a = s.byteAt a := rfl
@[simp] theorem State.byteAt_setCrcOk (s : State) (b : Bool) (a : Nat) : (s.setCrcOk b).byteAt a = s.byteAt a := rfl
@[simp] theorem State.byteAt_setUncorr (s : State) (b : Bool) (a : Nat) : (s.setUncorr b).byteAt a = s.byteAt a := rfl

@[simp] theorem State.length_memRead (s : State) (a n : Nat) : (s.memRead a n).length = n := by
  simp [State.memRead]

theorem State.getD_memRead (s : State) (a : Nat) {n i : Nat} (h : i < n) (d : Byte) :
    (s.memRead a n).getD i d = s.byteAt (a + i) := by
  simp [State.memRead, h]

/-- Reading back what MemWrite stored. -/
theorem State.memRead_memWrite (s : State) (a : Nat) (V : List Byte) (h : a + V.length ≤ 1024) :
    (s.memWrite a V).memRead a V.length = V := by
  refine List.ext_getElem (by simp) fun i h1 h2 => ?_
  simp only [State.memRead, List.getElem_map, List.getElem_range]
  rw [State.byteAt_memWrite _ _ _ (by omega)]
  simp [h2]

/-! ### Commands -/

/-- The three ends of a checked command. -/
theorem State.checked_eq_next {s : State} {bl ba : Bool} {eff t : State} :
    s.checked bl ba eff = .next t ↔
      (bl = true ∧ t = s.completeWith errBadLength) ∨ (bl = false ∧ ba = true ∧ t = s.completeWith errBadAddress)
        ∨ (bl = false ∧ ba = false ∧ t = eff) := by
  cases bl <;> cases ba <;> simp [State.checked, eq_comm]

/-- A checked command whose checks pass has its effect. -/
theorem State.checked_ok {s : State} {bl ba : Bool} {eff : State} (h1 : bl = false) (h2 : ba = false) :
    s.checked bl ba eff = .next eff := by
  simp [State.checked, h1, h2]

/-- A checked command always answers a next state. -/
theorem State.checked_runs (s : State) (bl ba : Bool) (eff : State) : ∃ t, s.checked bl ba eff = .next t := by
  cases bl <;> cases ba <;> simp [State.checked]

/-- The three ends of INTERLEAVE, DEINTERLEAVE and SCRAMBLE. -/
theorem State.transform_eq_next {s t : State} {unit : List Byte → List Byte × Word} :
    s.transform unit = .next t ↔
      ((s.opLen = 0 ∨ 1024 < s.opLen) ∧ t = s.completeWith errBadLength)
        ∨ ((s.opLen ≠ 0 ∧ s.opLen ≤ 1024) ∧ (1024 < s.opSrc + s.opLen ∨ 1024 < s.opDst + s.opLen)
            ∧ t = s.completeWith errBadAddress)
        ∨ ((s.opLen ≠ 0 ∧ s.opLen ≤ 1024) ∧ (s.opSrc + s.opLen ≤ 1024 ∧ s.opDst + s.opLen ≤ 1024)
            ∧ t = (((s.memWrite s.opDst (unit (s.memRead s.opSrc s.opLen)).1).setResults
                (unit (s.memRead s.opSrc s.opLen)).2 0).completeWith errNone)) := by
  simp only [State.transform, State.checked_eq_next, inRange, Config.bufBytes, Bool.or_eq_true, beq_iff_eq,
    decide_eq_true_eq, Bool.or_eq_false_iff, beq_eq_false_iff_ne, decide_eq_false_iff_not, Bool.not_eq_true',
    Bool.not_eq_false', Bool.and_eq_true, Bool.and_eq_false_iff, not_le, not_lt, State.complete_eq, ne_eq]

/-! ### The host bus -/

/-- What a host write can do to BUF: nothing, or four bytes in the window. -/
theorem State.busWrite_buf (s : State) (a : BitVec 11) (w : Word) :
    (s.busWrite a w).buf = if inWindow a then s.buf.write (wordAddr a - windowBase) (bytesOfWord w) else s.buf := by
  unfold State.busWrite
  split
  · rfl
  · cases regAt (wordAddr a) with
    | none => rfl
    | some r => cases r <;> simp only [State.writeReg, State.writeCmd, State.writeStatus_buf] <;> split <;> rfl

/-- A host write keeps the canonical form of BUF. -/
theorem State.busWrite_wf {s : State} (a : BitVec 11) (w : Word) (h : Memory.wf s.buf = true) :
    Memory.wf (s.busWrite a w).buf = true := by
  rw [State.busWrite_buf]
  split
  · exact Memory.wf_write _ _ h
  · exact h

/-- What a transaction can do: a read changes rdata only. -/
@[simp] theorem State.busOp_read (s : State) (a : BitVec 11) : s.busOp (.read a) = { s with rdata := s.busRead a } := rfl

@[simp] theorem State.busOp_write (s : State) (a : BitVec 11) (w : Word) : s.busOp (.write a w) = s.busWrite a w := rfl

/-- The four moves of the host. -/
theorem State.hostMove_cases (s : State) :
    (s.hostLine = none ∧ s.hostMove = s)
      ∨ (∃ l, s.hostLine = some l ∧ l.busOp? = none ∧ s.hostMove = { s with pos := l.nextPos s.rdata s.pos })
      ∨ (∃ l op, s.hostLine = some l ∧ l.busOp? = some op ∧ s.stalls op = true ∧ s.hostMove = s)
      ∨ (∃ l op, s.hostLine = some l ∧ l.busOp? = some op ∧ s.stalls op = false
          ∧ s.hostMove = { s.busOp op with pos := s.pos + 1 }) := by
  unfold State.hostMove
  cases hl : s.hostLine with
  | none => simp
  | some l =>
    cases ho : l.busOp? with
    | none => simp [ho]
    | some op => cases hs : s.stalls op <;> simp [ho, hs]

/-! ### The pins -/

/-- When ready is high: rst_n is high and was high, and the transaction is not held. -/
theorem State.ready_iff (s : State) (op : BusOp) :
    s.ready op = true ↔ s.rstLevel = true ∧ s.rstn = true ∧ s.stalls op = false := by
  simp [State.ready, State.outOfReset, and_assoc]

/-- When sel is high: the host stands at a line that is a transaction, and the engine takes no step. -/
theorem State.sel_iff (s : State) :
    s.sel = true ↔ (∃ op, s.presented = some op) ∧ (s.rstLevel = true → s.rstn = true → s.engineTurn = false) := by
  unfold State.sel State.outOfReset
  rw [Bool.and_eq_true, Option.isSome_iff_exists]
  cases s.rstLevel <;> cases s.rstn <;> simp

/-! ### The step -/

/-- What one step can be: held in reset, reset, the engine's move, or the host's. -/
theorem step_cases (s : State) :
    (s.rstLevel = false ∧ step s = .next s.sampled.heldInReset)
      ∨ (s.rstLevel = true ∧ s.rstn = false ∧ step s = .next s.sampled.takeReset)
      ∨ (s.rstLevel = true ∧ s.rstn = true ∧ s.engineTurn = true ∧ step s = s.sampled.engineMove)
      ∨ (s.rstLevel = true ∧ s.rstn = true ∧ s.engineTurn = false ∧ step s = .next s.sampled.tick.hostMove) := by
  unfold step
  cases s.rstLevel <;> cases s.rstn <;> cases s.engineTurn <;> simp

/-- What the engine's move can be: the decoded command, or completion with ILLEGAL_CMD. -/
theorem State.engineMove_cases (s : State) :
    (∃ i, decode s.lat.cmd = .legal i ∧ s.engineMove = exec i s)
      ∨ (∃ why, decode s.lat.cmd = .illegal why ∧ s.engineMove = .next (s.completeWith errIllegalCmd)) := by
  unfold State.engineMove
  cases h : decode s.lat.cmd with
  | legal i => exact .inl ⟨i, rfl, rfl⟩
  | illegal why => exact .inr ⟨why, rfl, rfl⟩

end Sys2Proof.Machine
end

