-- ==== Sys2Proof/Laws/PerInstr.lean ====
section
/-! SUPPORT. Per instruction: its command word is legal by the rule on the word's bits (30_encoding.md R116, R117). -/

/-- The command word of an instruction is legal. -/
def Sys2Proof.Laws.EncodingLegal.Statement (i : Sys2Proof.Instr) : Prop := Sys2Proof.legal (Sys2Proof.encode i) = true

namespace Sys2Proof.Laws

theorem EncodingLegal.nop : EncodingLegal.Statement .nop := by unfold EncodingLegal.Statement; decide
theorem EncodingLegal.crc16 : EncodingLegal.Statement .crc16 := by unfold EncodingLegal.Statement; decide
theorem EncodingLegal.golayEnc : EncodingLegal.Statement .golayEnc := by unfold EncodingLegal.Statement; decide
theorem EncodingLegal.golayDec : EncodingLegal.Statement .golayDec := by unfold EncodingLegal.Statement; decide
theorem EncodingLegal.interleave : EncodingLegal.Statement .interleave := by unfold EncodingLegal.Statement; decide
theorem EncodingLegal.deinterleave : EncodingLegal.Statement .deinterleave := by unfold EncodingLegal.Statement; decide
theorem EncodingLegal.scramble : EncodingLegal.Statement .scramble := by unfold EncodingLegal.Statement; decide
theorem EncodingLegal.sync : EncodingLegal.Statement .sync := by unfold EncodingLegal.Statement; decide
theorem EncodingLegal.txsize : EncodingLegal.Statement .txsize := by unfold EncodingLegal.Statement; decide
theorem EncodingLegal.encode (ci ib sb : Bool) : EncodingLegal.Statement (.encode ci ib sb) := by
  unfold EncodingLegal.Statement; revert ci ib sb; decide
theorem EncodingLegal.decode (ib sb : Bool) : EncodingLegal.Statement (.decode ib sb) := by
  unfold EncodingLegal.Statement; revert ib sb; decide

end Sys2Proof.Laws
end

