-- ==== Sys2Proof/Tests/Slice0.lean ====
section
/-! SUPPORT. Tests: expected values come from spec/95_test_vectors.md (the section is named with each) or are worked out by hand
from a rule. Then, for each statement with hypotheses, a state and operands that meet them. -/

namespace Sys2Proof.Tests

open Sys2Proof Sys2Proof.Machine

/-! ### Helpers -/

/-- n bytes of a number, the first byte the most significant. -/
def hexBytes (n v : Nat) : List Byte := (List.range n).map fun i => BitVec.ofNat 8 (v >>> (8 * (n - 1 - i)))

/-- The latch of a command, as if issued with these operands. -/
def latch (cmd : Word) (src dst len ec : Nat) : Latch :=
  { cmd := cmd, src := BitVec.ofNat 10 src, dst := BitVec.ofNat 10 dst, len := BitVec.ofNat 11 len
    ecaddr := BitVec.ofNat 10 ec, arg0 := 0, arg1 := 0, crcinit := 0xFFFF, anylen := true }

/-- A Busy state whose engine moves next, with the latch and BUF given. -/
def busyState (l : Latch) (m : Memory) : State :=
  { State.reset with status := Status.reset.issue, cmd := l.cmd, lat := l, buf := m }

/-- A value of the next state, if there is one. -/
def after {α : Type} (o : Out) (f : State → α) : Option α :=
  match o with
  | .next t => some (f t)
  | .fault _ => none
  | .refused _ => none

/-- RESULT0, RESULT1 and STATUS as they read. -/
def seen (t : State) : Word × Word × Word := (t.result0, t.result1, t.status.word)

/-- The scenario 1 payload (§1.1). -/
def scenario1 : List Byte := hexBytes 22 0x000900071E2A000000000000000000000000259A6B14

/-- The scenario 2 frame (§1.2). -/
def scenario2 : List Byte :=
  hexBytes 45 0x2424C06B300D0415C5DBD332EFD7C190D7AF7F3C2891DE9F4BA1EB2B437BE1E2D8419D3DC9E44FDF78DAA07A98

/-! ### Well-formedness: one ill-formed term for each check (30_encoding.md R111 to R115) -/

theorem test_wf_accepts_encode : ({ op := 0x09, ci := true, ib := true, sb := true } : CmdFields).wellFormed = true := by decide
theorem test_wf_refuses_op : ({ op := 0x0B } : CmdFields).wellFormed = false := by decide
theorem test_wf_refuses_ci : ({ op := 0x0A, ci := true } : CmdFields).wellFormed = false := by decide
theorem test_wf_refuses_ib : ({ op := 0x08, ib := true } : CmdFields).wellFormed = false := by decide
theorem test_wf_refuses_sb : ({ op := 0x00, sb := true } : CmdFields).wellFormed = false := by decide
theorem test_wf_refuses_rsv : ({ op := 0x09, rsv := 1 } : CmdFields).wellFormed = false := by decide
theorem test_assemble_refuses_crc16_ci : assemble { op := 0x01, ci := true } = none := by decide
theorem test_assemble_encode_ci : assemble { op := 0x09, ci := true } = some 0x00000109#32 := by decide

/-! ### Decoding: every constructor's word, written out bit by bit (30_encoding.md R110, R116) -/

theorem test_decode_nop : decode 0b00000000000000000000000000000000#32 = .legal .nop := by decide
theorem test_decode_crc16 : decode 0b00000000000000000000000000000001#32 = .legal .crc16 := by decide
theorem test_decode_golayEnc : decode 0b00000000000000000000000000000010#32 = .legal .golayEnc := by decide
theorem test_decode_golayDec : decode 0b00000000000000000000000000000011#32 = .legal .golayDec := by decide
theorem test_decode_interleave : decode 0b00000000000000000000000000000100#32 = .legal .interleave := by decide
theorem test_decode_deinterleave : decode 0b00000000000000000000000000000101#32 = .legal .deinterleave := by decide
theorem test_decode_scramble : decode 0b00000000000000000000000000000110#32 = .legal .scramble := by decide
theorem test_decode_sync : decode 0b00000000000000000000000000000111#32 = .legal .sync := by decide
theorem test_decode_txsize : decode 0b00000000000000000000000000001000#32 = .legal .txsize := by decide
theorem test_decode_encode_ci : decode 0b00000000000000000000000100001001#32 = .legal (.encode true false false) := by decide
theorem test_decode_encode_ib : decode 0b00000000000000000000001000001001#32 = .legal (.encode false true false) := by decide
theorem test_decode_decode_sb : decode 0b00000000000000000000010000001010#32 = .legal (.decode false true) := by decide
theorem test_decode_decode_ci : decode 0b00000000000000000000000100001010#32 = .illegal .flagNotAllowed := by decide
theorem test_decode_reserved_op : decode 0b00000000000000000000000011111111#32 = .illegal .reservedOpcode := by decide
theorem test_decode_bit11 : decode 0b00000000000000000000100000001001#32 = .illegal .reservedBits := by decide
theorem test_encode_decode_ib_sb : encode (.decode true true) = 0x0000060A#32 := by decide
theorem test_table_word : decodeTableWord 32 0x00000709 = some (.encode true true true) := by decide

/-! ### One step of each command -/

/-- §2.10, GO NOP: STATUS reads 0x00000002. -/
theorem test_nop : after (step (busyState (latch 0x0 0 0 0 0) [])) seen = some (0#32, 0#32, 0x2#32) := by decide +kernel

/-- §2.1: the check string gives 0x29B1. -/
theorem test_crc16 :
    after (step (busyState (latch 0x1 4 0 9 0) (cellsFrom 4 (hexBytes 9 0x313233343536373839)))) seen
      = some (0x29B1#32, 0#32, 0x2#32) := by decide +kernel

/-- §2.10: SRC = 1000, LEN = 25 passes the end. -/
theorem test_crc16_range : after (step (busyState (latch 0x1 1000 0 25 0) [])) seen = some (0#32, 0#32, 0x302#32) := by
  decide +kernel

/-- §2.2: the high bits of ARG0 are ignored. -/
theorem test_golayEnc :
    after (step (busyState { latch 0x2 0 0 0 0 with arg0 := 0xFFFFF123 } [])) seen
      = some (0x091856#32, 0x056#32, 0x2#32) := by decide +kernel

/-- §2.3: bits 0 and 22 flipped. -/
theorem test_golayDec :
    after (step (busyState { latch 0x3 0 0 0 0 with arg0 := 0x491857 } [])) seen
      = some (0x123#32, 0x40000102#32, 0x2#32) := by decide +kernel

/-- §2.3: the known-zero mask 0xE01 flags the word. -/
theorem test_golayDec_knownZero :
    after (step (busyState { latch 0x3 0 0 0 0 with arg0 := 0x003585, arg1 := 0xE01 } [])) seen
      = some (0x007#32, 0x0008240F#32, 0x12#32) := by decide +kernel

/-- §2.4: `1234` interleaves to `1432`, with multiplier 13; in place. -/
theorem test_interleave :
    after (step (busyState (latch 0x4 7 7 2 0) (cellsFrom 7 (hexBytes 2 0x1234)))) (fun t => (t.memRead 7 2, t.result0))
      = some (hexBytes 2 0x1432, 13#32) := by decide +kernel

/-- §2.10: an empty interleave is BAD_LENGTH. -/
theorem test_interleave_empty : after (step (busyState (latch 0x4 0 0 0 0) [])) seen = some (0#32, 0#32, 0x202#32) := by
  decide +kernel

/-- §2.4: `1234` deinterleaves to `3610`. -/
theorem test_deinterleave :
    after (step (busyState (latch 0x5 0 8 2 0) (cellsFrom 0 (hexBytes 2 0x1234))))
        (fun t => (t.memRead 0 2, t.memRead 8 2, t.result0))
      = some (hexBytes 2 0x1234, hexBytes 2 0x3610, 13#32) := by decide +kernel

/-- §2.5: `00FF` becomes `C090`; the state after 16 bits is 0x37E0. -/
theorem test_scramble :
    after (step (busyState (latch 0x6 0 1022 2 0) (cellsFrom 0 (hexBytes 2 0x00FF)))) (fun t => (t.memRead 1022 2, t.result0))
      = some (hexBytes 2 0xC090, 0x37E0#32) := by decide +kernel

/-- §2.7: SRC = 1 finds the unique word. -/
theorem test_sync :
    after (step (busyState (latch 0x7 1 0 0 0) (cellsFrom 0 (hexBytes 4 0x002424C0)))) seen
      = some (0x2424#32, 0#32, 0x6#32) := by decide +kernel

/-- §2.7: SRC = 0 does not, and raises no error. -/
theorem test_sync_none :
    after (step (busyState (latch 0x7 0 0 0 0) (cellsFrom 0 (hexBytes 4 0x002424C0)))) seen
      = some (0x24#32, 0#32, 0x2#32) := by decide +kernel

/-- §2.6: L = 22. -/
theorem test_txsize : after (step (busyState (latch 0x8 0 0 22 0) [])) seen = some (45#32, 0x0003080F#32, 0x2#32) := by
  decide +kernel

/-- §2.6: L = 255, the largest. -/
theorem test_txsize_max : after (step (busyState (latch 0x8 0 0 255 0) [])) seen = some (491#32, 0x00020CAA#32, 0x2#32) := by
  decide +kernel

/-- §2.8: ENCODE.CI of `41 00 00`; the source stays. -/
theorem test_encode_ci :
    after (step (busyState (latch 0x109 0 16 3 0) (cellsFrom 0 (hexBytes 3 0x410000))))
        (fun t => (t.memRead 0 3, t.memRead 16 8, t.result0, t.result1))
      = some (hexBytes 3 0x410000, hexBytes 8 0x24248B23A7175D18, 8#32, 0xB915#32) := by decide +kernel

/-- §1.2: ENCODE of scenario 1 is scenario 2. -/
theorem test_encode_scenario :
    after (step (busyState (latch 0x9 0 256 22 0) (cellsFrom 0 scenario1))) (fun t => t.memRead 256 45)
      = some scenario2 := by decide +kernel

/-- §3, program 5: DECODE of the 8-byte frame, with ANYLEN = 1. -/
theorem test_decode_short :
    after (step (busyState (latch 0xA 16 32 3 48) (cellsFrom 16 (hexBytes 8 0x24248B23A7175D18))))
        (fun t => (t.memRead 32 3, t.memRead 48 2, seen t))
      = some (hexBytes 3 0x4115B9, zeroBytes 2, 0xB915B915#32, 2#32, 0xE#32) := by decide +kernel

/-- §2.9, `1 data bit, cw 0`: the frame with flip (38,7). -/
theorem test_decode_one_flip :
    after (step (busyState (latch 0xA 256 512 22 576) (cellsFrom 256 (scenario2.set 38 0xCF)))) seen
      = some (0x146B146B#32, 0x0001000F#32, 0xE#32) := by decide +kernel

/-- §2.10: CRC16 with CI is illegal, with no other effect. -/
theorem test_illegal : after (step (busyState (latch 0x101 0 0 0 0) [])) seen = some (0#32, 0#32, 0x102#32) := by decide +kernel

/-! ### The host and the pins -/

/-- §2.10: a window write and its read back, at an address whose bits 1:0 are not zero. -/
theorem test_window : (State.reset.busWrite 0x400 0x44332211).busRead 0x402 = 0x44332211#32 := by decide +kernel

/-- §2.10: the reserved bits of LEN. -/
theorem test_len_mask : (State.reset.busWrite 0x018 0xFFFFFFFF).busRead 0x018 = 0x7FF#32 := by decide +kernel

/-- §2.10: a CMD write while Busy sets OVR and leaves CMD. -/
theorem test_overrun :
    let t := (busyState (latch 0x8 0 0 0 0) []).busWrite 0x00C 0
    (t.busRead 0x00C, t.busRead 0x008) = (0x8#32, 0x21#32) := by decide +kernel

/-- §2.10: CTRL = 2 and DONE give irq; clearing CTRL masks it. -/
theorem test_irq :
    let s := { State.reset with status := { Status.reset with done := true } }
    ((s.busWrite 0x004 2).irq, ((s.busWrite 0x004 2).busWrite 0x004 0).irq) = (true, false) := by decide +kernel

/-- Reset while Busy: the command is abandoned (70_reset_and_hazards.md R341). -/
theorem test_reset_while_busy :
    (match core.run 2 { busyState (latch 0x8 0 0 22 0) [] with rstIn := [false, true] } with
      | .next t => some (t.result0, t.status.busy, t.status.done, t.resets)
      | _ => none) = some (0#32, false, false, 1) := by decide +kernel

/-- A table word runs as the first command after reset: TXSIZE with LEN = 0 is BAD_LENGTH. -/
theorem test_fetch_word : after (step (State.reset.withFetchWord 32 0x8)) (fun t => t.status.word) = some 0x202#32 := by
  decide +kernel

/-! ### Witnesses: states and operands that meet the hypotheses of each statement -/

/-- An Idle state whose host stands at a line. -/
def hostState (l : HostLine) : State := { State.reset with prog := [l], latencies := [1] }

/-- A Busy state that leaves two steps to the host, standing at a line. -/
def waitingState (l : HostLine) : State := { busyState (latch 0x8 0 0 22 0) [] with prog := [l], wait := 2 }

theorem witness_StepRunsDecodedCommand :
    let s := busyState (latch 0x7 1 0 0 0) []
    OutOfReset s ∧ s.status.busy = true ∧ s.wait = 0 ∧ decode s.lat.cmd = .legal .sync := by
  refine ⟨⟨?_, ?_⟩, ?_, ?_, ?_⟩ <;> decide

theorem witness_IllegalWordCompletesWithError :
    let s := busyState (latch 0x101 0 0 0 0) []
    OutOfReset s ∧ s.status.busy = true ∧ s.wait = 0 ∧ legal s.lat.cmd = false := by
  refine ⟨⟨?_, ?_⟩, ?_, ?_, ?_⟩ <;> decide

theorem witness_StepKeepsInv : ∃ t, Inv (waitingState (.wr .status 0x22)) ∧ step (waitingState (.wr .status 0x22)) = .next t :=
  ⟨_, ⟨by decide, by decide, by decide, by decide, by decide⟩, rfl⟩

theorem witness_BusyCommandCompletes :
    let s := waitingState (.go .nop)
    s.rstn = true ∧ s.rstIn = [] ∧ s.status.busy = true := by decide

theorem witness_RunningCommandIsolated :
    let s := waitingState (.wr .cmd 0)
    OutOfReset s ∧ s.status.busy = true ∧ s.wait ≠ 0 := by
  refine ⟨⟨?_, ?_⟩, ?_, ?_⟩ <;> decide

theorem witness_GoLineRunsCommand :
    let s := hostState (.go (.encode true false false))
    s.rstn = true ∧ s.rstIn = [] ∧ s.status.busy = false ∧ s.hostLine = some (.go (.encode true false false))
      ∧ s.latencies = 1 :: [] := by decide

theorem witness_CmdWriteIssuesOrOverruns :
    State.reset.status.busy = false ∧ (busyState (latch 0x8 0 0 0 0) []).status.busy = true := by decide

theorem witness_WindowIsLittleEndian : (0 < 256 ∧ 255 < 256) ∧ BitVec.ofNat 11 (0x400 + 4 * 255) = 0x7FC#11 := by decide

theorem witness_UnmappedOffsetsInert :
    (0x03C ≤ (0x03C#11).toNat ∧ (0x03C#11).toNat < 0x400) ∧ (0x03C ≤ (0x3FF#11).toNat ∧ (0x3FF#11).toNat < 0x400) := by decide

theorem witness_OperandRegistersReadBack :
    ((0x030#11, 0xFFFF#32) ∈ [(0x004#11, 0x3#32), (0x010#11, 0x3FF#32), (0x014#11, 0x3FF#32), (0x018#11, 0x7FF#32),
        (0x01C#11, 0x3FF#32), (0x020#11, 0xFFFFFFFF#32), (0x024#11, 0xFFFFFFFF#32), (0x030#11, 0xFFFF#32)])
      ∧ wordAddr 0x034#11 ≠ wordAddr 0x030#11 := by decide

theorem witness_HostTransactionCompletes_read :
    (let s := hostState (.rdw 0x7FC)
     OutOfReset s ∧ s.engineTurn = false ∧ s.presented = some (.read 0x7FC#11) ∧ s.status.busy = false)
      ∧ (let s := waitingState (.rdw 0x3FF)
         OutOfReset s ∧ s.engineTurn = false ∧ s.presented = some (.read 0x3FF#11) ∧ (0x3FF#11).toNat < 0x400) := by
  refine ⟨⟨⟨?_, ?_⟩, ?_, ?_, ?_⟩, ⟨⟨?_, ?_⟩, ?_, ?_, ?_⟩⟩ <;> decide

theorem witness_HostTransactionCompletes_write :
    (let s := hostState (.wrw 0x400 5)
     OutOfReset s ∧ s.engineTurn = false ∧ s.presented = some (.write 0x400#11 5#32) ∧ s.status.busy = false)
      ∧ (let s := waitingState (.wr .len 7)
         OutOfReset s ∧ s.engineTurn = false ∧ s.presented = some (.write 0x018#11 7#32) ∧ (0x018#11).toNat < 0x400) := by
  refine ⟨⟨⟨?_, ?_⟩, ?_, ?_, ?_⟩, ⟨⟨?_, ?_⟩, ?_, ?_, ?_⟩⟩ <;> decide

/-- Both pins high; and each way one of them is low: rst_n low, the reset edge, a held window access, an engine step. -/
theorem witness_HostTransactionCompletes_pins :
    (let s := hostState (.rd .id)
     s.presented = some (.read 0x000#11) ∧ s.sel = true ∧ s.ready (.read 0x000#11) = true)
      ∧ ({ hostState (.rd .id) with rstIn := [false] } : State).ready (.read 0x000#11) = false
      ∧ ({ hostState (.rd .id) with rstn := false } : State).ready (.read 0x000#11) = false
      ∧ (waitingState (.rdw 0x400)).sel = true ∧ (waitingState (.rdw 0x400)).ready (.read 0x400#11) = false
      ∧ ({ waitingState (.rd .id) with wait := 0 } : State).presented = some (.read 0x000#11)
      ∧ ({ waitingState (.rd .id) with wait := 0 } : State).sel = false := by decide

/-- With either pin low there is a next state. -/
theorem witness_HostTransactionCompletes_held :
    ∃ t, OutOfReset (waitingState (.rdw 0x400)) ∧ (waitingState (.rdw 0x400)).presented = some (.read 0x400#11)
      ∧ (waitingState (.rdw 0x400)).sel = true ∧ (waitingState (.rdw 0x400)).ready (.read 0x400#11) = false
      ∧ step (waitingState (.rdw 0x400)) = .next t :=
  ⟨_, ⟨by decide, by decide⟩, by decide, by decide, by decide, rfl⟩

theorem witness_WindowAccessHeldWhileBusy :
    (let s := waitingState (.wrw 0x400 5)
     OutOfReset s ∧ s.status.busy = true ∧ s.wait ≠ 0 ∧ s.presented = some (.write 0x400#11 5#32)
      ∧ 0x400 ≤ (BusOp.write 0x400#11 5#32).addr.toNat)
      ∧ (waitingState (.rdw 0x7FF)).presented = some (.read 0x7FF#11) ∧ 0x400 ≤ (BusOp.read 0x7FF#11).addr.toNat := by
  refine ⟨⟨⟨?_, ?_⟩, ?_, ?_, ?_, ?_⟩, ?_, ?_⟩ <;> decide

theorem witness_AcknowledgeClearsIrq : (0x2#32 : Word).getLsbD 1 = true ∧ State.reset.status.busy = false := by decide

theorem witness_ResetEdgeRestoresRegisters :
    let s := { busyState (latch 0x8 0 0 22 0) [(3, 7)] with rstn := false }
    s.rstLevel = true ∧ s.rstn = false := by decide

theorem witness_HeldWhileResetLow : ({ State.reset with rstIn := [false] } : State).rstLevel = false := by decide

theorem witness_Crc16Result :
    let s := busyState (latch 0x1 0 0 1024 0) []
    s.opLen ≤ 1024 ∧ s.opSrc + s.opLen ≤ 1024 := by decide

theorem witness_region_commands :
    let s := busyState (latch 0x4 0 0 1024 0) []
    let u := busyState (latch 0x4 1023 1023 1 0) []
    (1 ≤ s.opLen ∧ s.opLen ≤ 1024 ∧ s.opSrc + s.opLen ≤ 1024 ∧ s.opDst + s.opLen ≤ 1024)
      ∧ (1 ≤ u.opLen ∧ u.opLen ≤ 1024 ∧ u.opSrc + u.opLen ≤ 1024 ∧ u.opDst + u.opLen ≤ 1024) := by decide

theorem witness_SyncResult : (busyState (latch 0x7 1022 0 0 0) []).opSrc + 2 ≤ 1024 := by decide

theorem witness_TxsizeResult :
    let s := busyState (latch 0x8 0 0 255 0) []
    1 ≤ s.opLen ∧ s.opLen ≤ 255 := by decide

theorem witness_EncodeResult :
    (let s := busyState (latch 0x109 0 979 22 0) []
     1 ≤ s.opLen ∧ s.opLen ≤ 255 ∧ (true = true → 3 ≤ s.opLen) ∧ s.opSrc + s.opLen ≤ 1024 ∧ s.opDst + txSize s.opLen ≤ 1024)
      ∧ (let s := busyState (latch 0x9 0 0 1 0) []
         1 ≤ s.opLen ∧ s.opLen ≤ 255 ∧ (false = true → 3 ≤ s.opLen) ∧ s.opSrc + s.opLen ≤ 1024
          ∧ s.opDst + txSize s.opLen ≤ 1024) := by decide

theorem witness_DecodeResult :
    (let s := busyState { latch 0xA 0 100 22 1009 with anylen := false } []
     s.lat.anylen = false ∧ (s.opLen = 22 ∨ s.opLen = 32) ∧ s.opSrc + txSize s.opLen ≤ 1024 ∧ s.opDst + s.opLen ≤ 1024
      ∧ s.opEc + ncw s.opLen ≤ 1024)
      ∧ (let s := busyState (latch 0xA 0 100 3 0) []
         s.lat.anylen = true ∧ 3 ≤ s.opLen ∧ s.opLen ≤ 255 ∧ s.opSrc + txSize s.opLen ≤ 1024 ∧ s.opDst + s.opLen ≤ 1024
          ∧ s.opEc + ncw s.opLen ≤ 1024) := by decide

/-- §2.9, `4 data bits, cw 14 (known-zero catch)`: code 0xF at the last codeword, UNCORR set, CRC_OK clear. -/
theorem witness_DecodeResult_uncorrectable :
    after (step (busyState (latch 0xA 256 512 22 576)
        (cellsFrom 256 ((((scenario2.set 20 0xA8).set 21 0xD1).set 22 0xFE).set 23 0x8F))))
        (fun t => (t.byteAt 590, t.byteAt 533, seen t))
      = some (0x0F#8, 0xE4#8, 0xE46B146B#32, 0x0000010F#32, 0x16#32) := by decide +kernel

/-- §2.9, `unique word damaged`, on the frame of §3 program 5: SYNC is clear and the frame is decoded all the same. -/
theorem witness_DecodeResult_unsynced :
    after (step (busyState (latch 0xA 16 32 3 48) (cellsFrom 16 (hexBytes 8 0x24258B23A7175D18))))
        (fun t => (t.memRead 32 3, seen t))
      = some (hexBytes 3 0x4115B9, 0xB915B915#32, 2#32, 0xA#32) := by decide +kernel

theorem witness_ErrorHasNoSideEffects :
    (∃ t, exec .txsize State.reset = .next t ∧ t.status.err ≠ 0)
      ∧ ∃ t, (busyState (latch 0x101 0 0 0 0) []).engineMove = .next t ∧ t.status.err ≠ 0 :=
  ⟨⟨_, rfl, by decide⟩, ⟨_, rfl, by decide⟩⟩

theorem witness_FlagWriters :
    ∃ t, exec .sync (busyState (latch 0x7 1 0 0 0) (cellsFrom 0 (hexBytes 4 0x002424C0))) = .next t
      ∧ t.status.sync ≠ (busyState (latch 0x7 1 0 0 0) []).status.sync :=
  ⟨_, rfl, by decide +kernel⟩

theorem witness_FlagWriters_crcOk_uncorr :
    (∃ t, exec (.decode false false) (busyState (latch 0xA 16 32 3 48) (cellsFrom 16 (hexBytes 8 0x24248B23A7175D18))) = .next t
      ∧ t.status.crcOk ≠ (busyState (latch 0xA 16 32 3 48) []).status.crcOk)
      ∧ ∃ t, exec .golayDec (busyState { latch 0x3 0 0 0 0 with arg0 := 0x1000, arg1 := 0 } []) = .next t
        ∧ t.status.uncorr ≠ true :=
  ⟨⟨_, rfl, by decide +kernel⟩, ⟨_, rfl, by decide +kernel⟩⟩

theorem witness_NoCommandWritesOperands : ∃ t, exec (.decode true false) State.reset = .next t := ⟨_, rfl⟩

theorem witness_CommandReadsListedOperandsOnly :
    sameOperands .golayEnc { latch 0x2 0 0 0 0 with arg0 := 0x123 } { latch 0x7 5 6 7 8 with arg0 := 0xFFFFF123 } := by
  unfold sameOperands; decide

theorem witness_CommandIndependentOfEarlierResults :
    ∃ t, exec (.decode false false) (busyState (latch 0xA 16 32 3 48) (cellsFrom 16 (hexBytes 8 0x24248B23A7175D18))) = .next t
      ∧ t.status.err = 0 := ⟨_, rfl, by decide +kernel⟩

theorem witness_GolayDistanceSeven : (0x001#12 : BitVec 12) ≠ 0x002#12 := by decide

theorem witness_GolayDecoderGuarantee :
    (popcount (0x400802#23) ≤ 3 ∧ 0x000#12 &&& 0x123#12 = 0#12) ∧ 4 ≤ popcount (0x00000F#23) := by decide

theorem witness_GolayDecoderGuarantee_unique :
    (0x0B1876#23 = golayEnc 0x123#12 ^^^ 0x020020#23) ∧ popcount (0x020020#23) ≤ 3 := by decide +kernel

theorem witness_UncorrectableFlagIsSound :
    0x028#12 &&& 0xE01#12 = 0#12 ∧ (golayDec (golayEnc 0x028#12 ^^^ 0x017000#23) 0xE01#12).code = 15 := by decide +kernel

theorem witness_MultiplierIsLargestPrime : 1 ≤ 1 ∧ (1 ≤ 43 ∧ ilB (8 * 43) = 337) := by decide +kernel

theorem witness_nonempty_payloads : ([0xA5] : List Byte) ≠ [] ∧ scenario1 ≠ [] := by decide

theorem witness_ScrambleMaskRecurrence : 0 < 8 * (zeroBytes 2).length ∧ 343 < 8 * (zeroBytes 43).length ∧ 14 < 15 := by
  decide

theorem witness_SystematicBody :
    (0 < ncw [0xA5#8].length ∧ 10 < 11) ∧ 8 * [0xA5#8].length + 11 * ncw [0xA5#8].length ≤ 19
      ∧ 23 < 8 * (txSize [0xA5#8].length - 2) := by decide

/-- Three flips in the one codeword of the one-byte payload `A5`: data bit 0 and parity bits 10 and 0 (§2.8 has its body). -/
theorem witness_PacketCorrectsThreePerCodeword :
    let P : List Byte := [0xA5]
    let E : List Byte := [0x80, 0x80, 0x20]
    E.length = (buildBody P).length
      ∧ receiveBody (([0, 0] ++ xorBytes (buildBody P) E : List Byte).drop 2) true true = xorBytes (buildBody P) E
      ∧ flipsIn E P.length 0 = 3 := by decide +kernel

theorem witness_DecodeOfEncodedFrame :
    let P := hexBytes 3 0x4115B9
    let s := busyState (latch 0xA 16 32 3 48) (cellsFrom 16 (hexBytes 8 0x24248B23A7175D18))
    P.length = s.opLen ∧ (s.lat.anylen = true ∧ 3 ≤ s.opLen ∧ s.opLen ≤ 255) ∧ s.opSrc + txSize s.opLen ≤ 1024
      ∧ s.opDst + s.opLen ≤ 1024 ∧ s.opEc + ncw s.opLen ≤ 1024 ∧ s.opDst + s.opLen ≤ s.opEc
      ∧ s.memRead s.opSrc (txSize s.opLen) = buildFrame P false false := by decide +kernel

theorem witness_PseudoCommandExpansions :
    let bs := hexBytes 9 0x313233343536373839
    1012 % 4 = 0 ∧ 1012 + 4 * ((bs.length + 3) / 4) ≤ 1024 ∧ 2 < (bs.length + 3) / 4 := by decide

end Sys2Proof.Tests
end

/-! ## PROOFS. The state: what commands and host accesses keep of it, the invariant, and the register file (10_state.md). -/

namespace Sys2Proof.Machine

/-! ### What a command keeps

Every command makes some of the listed updates and then completes; `CommandKeeps` is closed under these updates, and the
inversion lemma `exec_ends` says once how every command ends. -/

/-- The commands that write STATUS.SYNC (10_state.md R56). -/
def WritesSync (i : Instr) : Prop := i = .sync ∨ ∃ ib sb, i = .decode ib sb

/-- The commands that write STATUS.CRC_OK (10_state.md R56). -/
def WritesCrcOk (i : Instr) : Prop := ∃ ib sb, i = .decode ib sb

/-- The commands that write STATUS.UNCORR (10_state.md R56). -/
def WritesUncorr (i : Instr) : Prop := i = .golayDec ∨ ∃ ib sb, i = .decode ib sb

/-- What command `i`, run on `s`, has kept of it in the state `e` it is about to complete in. -/
structure CommandKeeps (i : Instr) (s e : State) : Prop where
  operands : OperandsKept s e
  bufWf : Memory.wf s.buf = true → Memory.wf e.buf = true
  ovr : e.status.ovr = s.status.ovr
  sync : e.status.sync ≠ s.status.sync → WritesSync i
  crcOk : e.status.crcOk ≠ s.status.crcOk → WritesCrcOk i
  uncorr : e.status.uncorr ≠ s.status.uncorr → WritesUncorr i

/-- How a command ends: it completes, with one of the codes 0 to 3, in a state that keeps what no command writes. -/
def CommandEnds (i : Instr) (s t : State) : Prop :=
  ∃ e code, t = e.completeWith code ∧ code ≤ 3 ∧ CommandKeeps i s e

namespace CommandKeeps

variable {i : Instr} {s e : State}

theorem refl (i : Instr) (s : State) : CommandKeeps i s s where
  operands := by constructor <;> rfl
  bufWf := id
  ovr := rfl
  sync h := absurd rfl h
  crcOk h := absurd rfl h
  uncorr h := absurd rfl h

theorem memWrite (h : CommandKeeps i s e) (a : Nat) (V : List Byte) : CommandKeeps i s (e.memWrite a V) :=
  { h with operands := { h.operands with }, bufWf := fun hs => Memory.wf_write a V (h.bufWf hs) }

theorem setResults (h : CommandKeeps i s e) (r0 r1 : Word) : CommandKeeps i s (e.setResults r0 r1) :=
  { h with operands := { h.operands with } }

theorem setSync (h : CommandKeeps i s e) (hi : WritesSync i) (b : Bool) : CommandKeeps i s (e.setSync b) :=
  { h with operands := { h.operands with }, sync := fun _ => hi }

theorem setCrcOk (h : CommandKeeps i s e) (hi : WritesCrcOk i) (b : Bool) : CommandKeeps i s (e.setCrcOk b) :=
  { h with operands := { h.operands with }, crcOk := fun _ => hi }

theorem setUncorr (h : CommandKeeps i s e) (hi : WritesUncorr i) (b : Bool) : CommandKeeps i s (e.setUncorr b) :=
  { h with operands := { h.operands with }, uncorr := fun _ => hi }

theorem completeWith (h : CommandKeeps i s e) (c : BitVec 4) : CommandKeeps i s (e.completeWith c) :=
  { h with operands := { h.operands with } }

/-- A command without checks ends well once its updates keep what they must. -/
theorem ends (h : CommandKeeps i s e) : CommandEnds i s e.complete := ⟨e, errNone, rfl, by decide, h⟩

/-- A failed check ends the command on the state it started in; passed checks end it on its effect. -/
theorem checked_ends (h : CommandKeeps i s e) {badLength badAddress : Bool} {t : State}
    (ht : s.checked badLength badAddress e.complete = .next t) : CommandEnds i s t := by
  obtain ⟨-, rfl⟩ | ⟨-, -, rfl⟩ | ⟨-, -, rfl⟩ := State.checked_eq_next.1 ht
  · exact ⟨s, errBadLength, rfl, by decide, refl i s⟩
  · exact ⟨s, errBadAddress, rfl, by decide, refl i s⟩
  · exact h.ends

end CommandKeeps

/-- How every command ends. -/
theorem exec_ends {i : Instr} {s t : State} (h : exec i s = .next t) : CommandEnds i s t := by
  have hs : CommandKeeps i s s := .refl i s
  cases i with
  | nop => cases h; exact hs.ends
  | golayEnc => cases h; exact (hs.setResults _ _).ends
  | golayDec => cases h; exact ((hs.setResults _ _).setUncorr (.inl rfl) _).ends
  | crc16 => exact (hs.setResults _ _).checked_ends h
  | interleave => exact ((hs.memWrite _ _).setResults _ _).checked_ends h
  | deinterleave => exact ((hs.memWrite _ _).setResults _ _).checked_ends h
  | scramble => exact ((hs.memWrite _ _).setResults _ _).checked_ends h
  | sync => exact ((hs.setSync (.inl rfl) _).setResults _ _).checked_ends (badLength := false) h
  | txsize => exact (hs.setResults _ _).checked_ends h
  | encode ci ib sb => exact ((hs.memWrite _ _).setResults _ _).checked_ends h
  | decode ib sb =>
    have hwrote (V W : List Byte) := (hs.memWrite s.opDst V).memWrite s.opEc W
    have hflagged (V W : List Byte) (b c d : Bool) :=
      (((hwrote V W).setSync (.inr ⟨ib, sb, rfl⟩) b).setCrcOk ⟨ib, sb, rfl⟩ c).setUncorr (.inr ⟨ib, sb, rfl⟩) d
    exact ((hflagged _ _ _ _ _).setResults _ _).checked_ends h

/-- How every move of the engine ends; an illegal word ends like a command that only raises an error. -/
theorem State.engineMove_ends {s t : State} (h : s.engineMove = .next t) : ∃ i, CommandEnds i s t := by
  obtain ⟨i, -, hi⟩ | ⟨-, -, hi⟩ := s.engineMove_cases
  · exact ⟨i, exec_ends (hi ▸ h)⟩
  · rw [hi] at h
    cases h
    exact ⟨.nop, s, errIllegalCmd, rfl, by decide, .refl .nop s⟩

/-- Settles O39, from the end every command has. -/
theorem flagWriters : Obligations.FlagWriters := by
  intro i s t h
  obtain ⟨e, code, rfl, -, he⟩ := exec_ends h
  exact ⟨rfl, rfl, he.ovr, he.sync, he.crcOk, he.uncorr⟩

/-- Settles O40, from the end every command has. -/
theorem noCommandWritesOperands : Obligations.NoCommandWritesOperands := by
  intro i s t h
  obtain ⟨e, code, rfl, -, he⟩ := exec_ends h
  exact (he.completeWith code).operands

/-! ### Host accesses -/

/-- A CMD write while Busy only records the overrun (10_state.md R38). -/
theorem State.writeCmd_of_busy {s : State} (h : s.status.busy = true) (w : Word) :
    s.writeCmd w = { s with status := s.status.overrun } := by
  simp [State.writeCmd, h]

/-- A CMD write while Idle issues (10_state.md R38). -/
theorem State.writeCmd_of_idle {s : State} (h : s.status.busy = false) (w : Word) : s.writeCmd w = s.issue w := by
  simp [State.writeCmd, h]

/-- What a host write can be: a word of the window, a register, or nothing. -/
theorem State.busWrite_cases (s : State) (a : BitVec 11) (w : Word) :
    (inWindow a = true ∧ s.busWrite a w = s.memWrite (wordAddr a - windowBase) (bytesOfWord w))
      ∨ (inWindow a = false ∧ ∃ r, s.busWrite a w = s.writeReg r w) ∨ s.busWrite a w = s := by
  unfold State.busWrite
  cases inWindow a with
  | true => exact .inl ⟨rfl, rfl⟩
  | false =>
    cases regAt (wordAddr a) with
    | none => exact .inr (.inr rfl)
    | some r => exact .inr (.inl ⟨rfl, r, rfl⟩)

/-- While Busy the window is held, and nothing else (20_memory.md R84, R85). -/
theorem State.stalls_of_busy {s : State} (h : s.status.busy = true) (op : BusOp) : s.stalls op = inWindow op.addr := by
  simp [State.stalls, h]

/-- While Idle nothing is held (20_memory.md R85). -/
theorem State.stalls_of_idle {s : State} (h : s.status.busy = false) (op : BusOp) : s.stalls op = false := by
  simp [State.stalls, h]

/-! ### The invariant -/

namespace Inv

variable {s t : State}

/-- The invariant speaks of BUF, STATUS, the latched word and CMD only. -/
theorem congr (h : Inv s) (hbuf : t.buf = s.buf) (hstatus : t.status = s.status) (hlat : t.lat.cmd = s.lat.cmd)
    (hcmd : t.cmd = s.cmd) : Inv t := by
  constructor
  · rw [hbuf]; exact h.bufWf
  · rw [hstatus]; exact h.errCode
  · rw [hstatus]; exact h.busyDone
  · rw [hstatus]; exact h.busyErr
  · rw [hstatus, hlat, hcmd]; exact h.busyCmd

/-- While Idle the invariant is a canonical BUF and a defined error code. -/
theorem of_idle (hbuf : Memory.wf t.buf = true) (herr : t.status.err ≤ 3) (hidle : t.status.busy = false) : Inv t where
  bufWf := hbuf
  errCode := herr
  busyDone hb := by simp [hidle] at hb
  busyErr hb := by simp [hidle] at hb
  busyCmd hb := by simp [hidle] at hb

theorem issue (h : Inv s) (w : Word) : Inv (s.issue w) where
  bufWf := h.bufWf
  errCode := by simp [errNone]
  busyDone _ := rfl
  busyErr _ := rfl
  busyCmd _ := rfl

theorem writeCmd (h : Inv s) (w : Word) : Inv (s.writeCmd w) := by
  cases hb : s.status.busy with
  | true => rw [State.writeCmd_of_busy hb]; exact { h with }
  | false => rw [State.writeCmd_of_idle hb]; exact h.issue w

theorem writeStatus (h : Inv s) (w : Word) : Inv (s.writeStatus w) :=
  { h with busyDone := fun hb => by simp [h.busyDone hb] }

theorem writeReg (h : Inv s) (r : Reg) (w : Word) : Inv (s.writeReg r w) := by
  cases r with
  | status => exact h.writeStatus w
  | cmd => exact h.writeCmd w
  | _ => exact h.congr rfl rfl rfl rfl

theorem busWrite (h : Inv s) (a : BitVec 11) (w : Word) : Inv (s.busWrite a w) := by
  obtain ⟨-, hw⟩ | ⟨-, r, hw⟩ | hw := s.busWrite_cases a w <;> rw [hw]
  · exact { h with bufWf := Memory.wf_write _ _ h.bufWf }
  · exact h.writeReg r w
  · exact h

theorem busOp (h : Inv s) (op : BusOp) : Inv (s.busOp op) := by
  cases op with
  | read a => exact h.congr rfl rfl rfl rfl
  | write a w => exact h.busWrite a w

theorem hostMove (h : Inv s) : Inv s.hostMove := by
  obtain ⟨-, hm⟩ | ⟨l, -, -, hm⟩ | ⟨-, -, -, -, -, hm⟩ | ⟨-, op, -, -, -, hm⟩ := s.hostMove_cases <;> rw [hm]
  · exact h
  · exact h.congr rfl rfl rfl rfl
  · exact h
  · exact (h.busOp op).congr rfl rfl rfl rfl

/-- A command ends Idle, with a defined code, and its writes keep BUF canonical. -/
theorem of_commandEnds {i : Instr} (h : Inv s) (ht : CommandEnds i s t) : Inv t := by
  obtain ⟨e, code, rfl, hcode, he⟩ := ht
  exact of_idle (he.bufWf h.bufWf) hcode rfl

end Inv

/-- Settles O7: the machine is Idle after reset, with nothing written to BUF. -/
theorem resetMeetsInv : Obligations.ResetMeetsInv := Inv.of_idle rfl (by decide) rfl

/-- Settles O8, one case for each thing a step can be. -/
theorem stepKeepsInv : Obligations.StepKeepsInv := by
  intro s t h hstep
  have hsampled : Inv s.sampled := h.congr rfl rfl rfl rfl
  obtain ⟨-, hs⟩ | ⟨-, -, hs⟩ | ⟨-, -, -, hs⟩ | ⟨-, -, -, hs⟩ := step_cases s <;> rw [hs] at hstep
  case inl => -- held in reset
    cases hstep
    exact hsampled.congr rfl rfl rfl rfl
  case inr.inl => -- the reset edge
    cases hstep
    exact resetMeetsInv.congr rfl rfl rfl rfl
  case inr.inr.inl => -- the engine's move
    obtain ⟨i, hends⟩ := State.engineMove_ends hstep
    exact hsampled.of_commandEnds hends
  case inr.inr.inr => -- the host's move
    cases hstep
    have htick : Inv s.sampled.tick := hsampled.congr rfl rfl rfl rfl
    exact htick.hostMove

/-! ### Whose turn it is -/

theorem State.engineTurn_iff (s : State) : s.engineTurn = true ↔ s.status.busy = true ∧ s.wait = 0 := by
  simp [State.engineTurn]

theorem State.engineTurn_eq_false_iff (s : State) : s.engineTurn = false ↔ (s.status.busy = true → s.wait ≠ 0) := by
  simp [State.engineTurn]

/-- Out of reset, the engine moves at its turn. -/
theorem step_of_engineTurn {s : State} (hrst : OutOfReset s) (hturn : s.engineTurn = true) :
    step s = s.sampled.engineMove := by
  simp [step, hrst.1, hrst.2, hturn]

/-- Out of reset, the host moves where it is not the engine's turn. -/
theorem step_of_not_engineTurn {s : State} (hrst : OutOfReset s) (hturn : s.engineTurn = false) :
    step s = .next s.sampled.tick.hostMove := by
  simp [step, hrst.1, hrst.2, hturn]

theorem State.engineMove_of_legal {s : State} {i : Instr} (h : decode s.lat.cmd = .legal i) : s.engineMove = exec i s := by
  simp [State.engineMove, h]

/-- Settles O4: at its turn the engine moves, and its move is the command its latched word decodes to. -/
theorem stepRunsDecodedCommand : Obligations.StepRunsDecodedCommand := by
  intro s i hrst hbusy hwait hdec
  rw [step_of_engineTurn hrst (s.engineTurn_iff.2 ⟨hbusy, hwait⟩)]
  exact State.engineMove_of_legal (s := s.sampled) hdec

/-! ### A command in flight -/

/-- What the host cannot reach while a command is in flight. -/
structure InFlightKept (s t : State) : Prop where
  lat : t.lat = s.lat
  cmd : t.cmd = s.cmd
  buf : t.buf = s.buf
  result0 : t.result0 = s.result0
  result1 : t.result1 = s.result1
  busy : t.status.busy = s.status.busy
  err : t.status.err = s.status.err
  sync : t.status.sync = s.status.sync
  crcOk : t.status.crcOk = s.status.crcOk
  uncorr : t.status.uncorr = s.status.uncorr
  wait : t.wait = s.wait

namespace InFlightKept

variable {s : State}

theorem refl (s : State) : InFlightKept s s := by constructor <;> rfl

/-- Moving the host, or putting a word on rdata, touches nothing of the command. -/
theorem hostFields {t : State} (h : InFlightKept s t) (pos : Nat) (rdata : Word) :
    InFlightKept s { t with pos := pos, rdata := rdata } := { h with }

/-- No register write reaches a command in flight: a CMD write is dropped, and STATUS bits 1 and 5 are not the engine's. -/
theorem writeReg (hb : s.status.busy = true) (r : Reg) (w : Word) : InFlightKept s (s.writeReg r w) := by
  cases r with
  | cmd =>
    have hdropped : s.writeReg .cmd w = { s with status := s.status.overrun } := State.writeCmd_of_busy hb w
    rw [hdropped]
    constructor <;> rfl
  | _ => constructor <;> rfl

/-- A transaction that is not held is a read or goes to a register. -/
theorem busOp (hb : s.status.busy = true) {op : BusOp} (hs : s.stalls op = false) : InFlightKept s (s.busOp op) := by
  cases op with
  | read a => exact (refl s).hostFields _ _
  | write a w =>
    have hwin : inWindow a = false := (State.stalls_of_busy hb (.write a w)).symm.trans hs
    rw [State.busOp_write]
    obtain ⟨hin, -⟩ | ⟨-, r, hw⟩ | hw := s.busWrite_cases a w
    · simp [hwin] at hin
    · rw [hw]; exact writeReg hb r w
    · rw [hw]; exact refl s

theorem hostMove (hb : s.status.busy = true) : InFlightKept s s.hostMove := by
  obtain ⟨-, hm⟩ | ⟨l, -, -, hm⟩ | ⟨-, -, -, -, -, hm⟩ | ⟨-, op, -, -, hs, hm⟩ := s.hostMove_cases <;> rw [hm]
  · exact refl s
  · exact (refl s).hostFields _ _
  · exact refl s
  · exact (busOp hb hs).hostFields _ _

end InFlightKept

/-! ### Registers at their addresses -/

theorem inWindow_addr (r : Reg) : inWindow r.addr = false := by cases r <;> decide

theorem regAt_addr (r : Reg) : regAt (wordAddr r.addr) = some r := by cases r <;> decide

/-- A read at a register's address reads that register. -/
theorem State.busRead_addr (s : State) (r : Reg) : s.busRead r.addr = s.readReg r := by
  simp [State.busRead, inWindow_addr, regAt_addr]

/-- A write at a register's address writes that register. -/
theorem State.busWrite_addr (s : State) (r : Reg) (w : Word) : s.busWrite r.addr w = s.writeReg r w := by
  simp [State.busWrite, inWindow_addr, regAt_addr]

/-- Settles O10: a Busy machine with steps left to the host makes a host move, which no command in flight feels. -/
theorem runningCommandIsolated : Obligations.RunningCommandIsolated := by
  intro s hrst hbusy hwait
  have hturn : s.engineTurn = false := s.engineTurn_eq_false_iff.2 fun _ => hwait
  have hkept : InFlightKept s.sampled.tick s.sampled.tick.hostMove := .hostMove hbusy
  have hread0 (t : State) : t.busRead 0x028#11 = t.result0 := t.busRead_addr .result0
  have hread1 (t : State) : t.busRead 0x02C#11 = t.result1 := t.busRead_addr .result1
  exact ⟨_, step_of_not_engineTurn hrst hturn, hkept.lat, hkept.cmd, hkept.buf, hkept.result0, hkept.result1,
    ((hread0 _).trans hkept.result0).trans (hread0 s).symm, ((hread1 _).trans hkept.result1).trans (hread1 s).symm,
    hkept.busy.trans hbusy, hkept.err, hkept.sync, hkept.crcOk, hkept.uncorr, hkept.wait⟩

/-! ### From GO to the command -/

/-- The decoder reads the word of an instruction as that instruction (30_encoding.md R116, R122). -/
theorem decode_encode (i : Instr) : decode (encode i) = .legal i := by
  cases i with
  | encode ci ib sb => revert ci ib sb; decide
  | decode ib sb => revert ib sb; decide
  | _ => decide

/-- With no level of rst_n to come, its sampling changes nothing. -/
theorem State.sampled_of_rstIn_nil {s : State} (h : s.rstIn = []) : s.sampled = s := by
  cases s
  simp_all [State.sampled]

/-- The state in which the GO line of an Idle host leaves the machine (30_encoding.md R121). -/
def State.afterGo (s : State) (i : Instr) : State := { s.issue (encode i) with pos := s.pos + 1 }

/-- At a GO line an Idle host issues the command's word and goes on to the next line. -/
theorem State.hostMove_go {s : State} {i : Instr} (hidle : s.status.busy = false) (hline : s.hostLine = some (.go i)) :
    s.hostMove = s.afterGo i := by
  have hissue : s.busWrite (Reg.addr .cmd) (encode i) = s.issue (encode i) :=
    (s.busWrite_addr .cmd _).trans (State.writeCmd_of_idle hidle _)
  simp [State.hostMove, hline, HostLine.busOp?, State.stalls_of_idle hidle, hissue, State.afterGo]

/-- With a latency of 1 prescribed, a GO leaves no step to the host (70_reset_and_hazards.md R349). -/
theorem State.afterGo_wait {s : State} {rest : List Nat} (h : s.latencies = 1 :: rest) (i : Instr) :
    (s.afterGo i).wait = 0 := by
  simp [State.afterGo, State.nextLatency, h]

/-- The step after a GO, where no step is left to the host and rst_n stays high, is the command's. -/
theorem step_afterGo {s : State} {rest : List Nat} (hrstn : s.rstn = true) (hrstIn : s.rstIn = [])
    (hlat : s.latencies = 1 :: rest) (i : Instr) : step (s.afterGo i) = exec i (s.afterGo i) := by
  have hnone : (s.afterGo i).rstIn = [] := hrstIn
  have hrst : OutOfReset (s.afterGo i) := ⟨by simp [State.rstLevel, hnone], hrstn⟩
  have hstep := stepRunsDecodedCommand (s.afterGo i) i hrst rfl (State.afterGo_wait hlat i) (decode_encode i)
  exact hstep.trans (congrArg (exec i) (State.sampled_of_rstIn_nil hnone))

/-- Settles O11: the host's move issues the word with no step left to the host, so the next step is the engine's. -/
theorem goLineRunsCommand : Obligations.GoLineRunsCommand := by
  intro s i rest hrstn hrstIn hidle hline hlat
  have hrst : OutOfReset s := ⟨by simp [State.rstLevel, hrstIn], hrstn⟩
  have hturn : s.engineTurn = false := s.engineTurn_eq_false_iff.2 (by simp [hidle])
  have hissued : step s = .next (s.sampled.tick.afterGo i) := by
    rw [step_of_not_engineTurn hrst hturn, State.hostMove_go (s := s.sampled.tick) hidle hline]
  have hruns := step_afterGo (s := s.sampled.tick) hrstn (by simp [hrstIn]) hlat i
  exact ⟨_, hissued, hruns, rfl, rfl, rfl, rfl, rfl, rfl, rfl, rfl, rfl, rfl, rfl, rfl, rfl⟩

/-! ### The register map -/

/-- The last register stands at 0x038 (10_state.md R30). -/
theorem Reg.offset_le (r : Reg) : r.offset ≤ 0x038 := by cases r <;> decide

theorem offset_of_regAt {off : Nat} {r : Reg} (h : regAt off = some r) : r.offset = off := by
  simpa using List.find?_some h

theorem regAt_eq_none {off : Nat} (h : 0x038 < off) : regAt off = none := by
  refine List.find?_eq_none.2 fun r _ => ?_
  have := r.offset_le
  rw [beq_iff_eq]; omega

/-- A register's address is its offset (10_state.md R30, 20_memory.md R81). -/
theorem wordAddr_addr (r : Reg) : wordAddr r.addr = r.offset := by cases r <;> decide

/-- The window is the upper half of the address space (20_memory.md R82). -/
theorem inWindow_iff {a : BitVec 11} : inWindow a = true ↔ 0x400 ≤ a.toNat := by
  rw [inWindow, decide_eq_true_iff, wordAddr, windowBase]; omega

/-- Settles O16: between the last register and the window no register and no byte of BUF is reached. -/
theorem unmappedOffsetsInert : Obligations.UnmappedOffsetsInert := by
  intro s A w hlo hhi
  have hwin : inWindow A = false := Bool.eq_false_iff.2 fun h => by have := inWindow_iff.1 h; omega
  have hreg : regAt (wordAddr A) = none := regAt_eq_none (by simp only [wordAddr]; omega)
  simp [State.busRead, State.busWrite, hwin, hreg]

/-- Settles O17. -/
theorem readOnlyRegisters : Obligations.ReadOnlyRegisters := by
  intro s w
  refine ⟨s.busRead_addr .id, s.busRead_addr .uwreg, s.busRead_addr .param, s.busRead_addr .result0,
    s.busRead_addr .result1, ?_⟩
  simp only [List.forall_mem_cons, List.not_mem_nil, false_implies, implies_true, and_true]
  exact ⟨s.busWrite_addr .id w, s.busWrite_addr .result0 w, s.busWrite_addr .result1 w, s.busWrite_addr .uwreg w,
    s.busWrite_addr .param w⟩

/-- Settles O12, one case for each state of the engine. -/
theorem cmdWriteIssuesOrOverruns : Obligations.CmdWriteIssuesOrOverruns := by
  intro s w
  have hwrite : s.busWrite 0x00C#11 w = s.writeCmd w := s.busWrite_addr .cmd w
  constructor
  · intro hidle
    exact ⟨s.issue w, hwrite.trans (State.writeCmd_of_idle hidle w), rfl, rfl, rfl, rfl, rfl, rfl, rfl, rfl⟩
  · intro hbusy
    exact hwrite.trans (State.writeCmd_of_busy hbusy w)

/-- Settles O13. -/
theorem statusWriteClearsOnly : Obligations.StatusWriteClearsOnly := by
  intro s w
  have hwrite : s.busWrite 0x008#11 w = s.writeStatus w := s.busWrite_addr .status w
  have hclear (b c : Bool) : (b && !c) = if c then false else b := by cases c <;> simp
  rw [hwrite, State.writeStatus, Status.hostWrite, hclear, hclear]

/-! ### Register words, bit by bit -/

@[simp] theorem getLsbD_bitWord (b : Bool) (i : Nat) : (bitWord b).getLsbD i = (decide (i = 0) && b) := by
  cases b <;> simp [bitWord, BitVec.getLsbD_one]

@[simp] theorem getElem_bitWord (b : Bool) (i : Nat) (h : i < 32) : (bitWord b)[i] = (decide (i = 0) && b) := by
  rw [← BitVec.getLsbD_eq_getElem, getLsbD_bitWord]

/-- CTRL.IRQEN stands at bit 1 (10_state.md R35). -/
theorem Ctrl.getLsbD_word_one (c : Ctrl) : c.word.getLsbD 1 = c.irqen := by
  simp [Ctrl.word]

/-- The flags of STATUS stand at bits 0 to 5 (10_state.md R36). -/
theorem Status.getLsbD_word_flags (t : Status) :
    t.word.getLsbD 0 = t.busy ∧ t.word.getLsbD 1 = t.done ∧ t.word.getLsbD 2 = t.sync ∧ t.word.getLsbD 3 = t.crcOk
      ∧ t.word.getLsbD 4 = t.uncorr ∧ t.word.getLsbD 5 = t.ovr := by
  simp [Status.word]

/-- ERR stands at bits 11:8 of STATUS (10_state.md R36). -/
theorem Status.extractLsb'_word (t : Status) : t.word.extractLsb' 8 4 = t.err := by
  refine BitVec.eq_of_getLsbD_eq fun i hi => ?_
  interval_cases i <;> simp [Status.word]

/-- A bit moved up to place k has no other bit. -/
theorem bitWord_shiftLeft_and_eq_zero (b : Bool) {k : Nat} {mask : Word} (h : 1#32 <<< k &&& mask = 0#32) :
    bitWord b <<< k &&& mask = 0#32 := by
  cases b <;> simp [bitWord, h]

/-- Bits 7:6 and 31:12 of STATUS read zero (10_state.md R36, R50). -/
theorem Status.word_and_reserved (t : Status) : t.word &&& 0xFFFFF0C0#32 = 0#32 := by
  have hbusy : bitWord t.busy &&& 0xFFFFF0C0#32 = 0#32 := by cases t.busy <;> decide
  have herr : ∀ e : BitVec 4, zext32 e <<< 8 &&& 0xFFFFF0C0#32 = 0#32 := by decide
  have hflag (b : Bool) {k : Nat} := bitWord_shiftLeft_and_eq_zero b (k := k) (mask := 0xFFFFF0C0#32)
  simp only [Status.word, BitVec.and_or_distrib_right, hbusy, herr, hflag _ (k := 1) (by decide),
    hflag _ (k := 2) (by decide), hflag _ (k := 3) (by decide), hflag _ (k := 4) (by decide),
    hflag _ (k := 5) (by decide), BitVec.or_zero]

/-- Settles O22. -/
theorem statusWordLayout : Obligations.StatusWordLayout := by
  intro s
  have hread : s.busRead 0x008#11 = s.status.word := s.busRead_addr .status
  rw [hread]
  obtain ⟨hbusy, hdone, hsync, hcrcOk, huncorr, hovr⟩ := s.status.getLsbD_word_flags
  exact ⟨hbusy, hdone, hsync, hcrcOk, huncorr, hovr, s.status.extractLsb'_word, s.status.word_and_reserved⟩

/-- Settles O21. -/
theorem irqIsDoneAndEnable : Obligations.IrqIsDoneAndEnable := by
  intro s
  have hstatus : s.busRead 0x008#11 = s.status.word := s.busRead_addr .status
  have hctrl : s.busRead 0x004#11 = s.ctrl.word := s.busRead_addr .ctrl
  obtain ⟨-, hdone, -⟩ := s.status.getLsbD_word_flags
  rw [hstatus, hctrl, hdone, s.ctrl.getLsbD_word_one, State.irq]

/-! ### Read-write registers -/

/-- The writable bits of the registers that keep what is written: CTRL, the operands and CRCINIT (10_state.md R35, R39 to R43,
R47). STATUS and CMD are written for their effect, and the others are read-only. -/
def Reg.writableMask : Reg → Option Word
  | .ctrl => some 0x3
  | .src => some 0x3FF
  | .dst => some 0x3FF
  | .len => some 0x7FF
  | .ecaddr => some 0x3FF
  | .arg0 => some 0xFFFFFFFF
  | .arg1 => some 0xFFFFFFFF
  | .crcinit => some 0xFFFF
  | _ => none

/-- A field of n bits keeps the low n bits of the word. -/
theorem zext32_setWidth (w : Word) {n : Nat} (hn : n ≤ 32) : zext32 (w.setWidth n) = w &&& BitVec.ofNat 32 (2 ^ n - 1) := by
  have hpow : 2 ^ n ≤ 2 ^ 32 := Nat.pow_le_pow_right (by decide) hn
  refine BitVec.eq_of_toNat_eq ?_
  rw [BitVec.toNat_and, BitVec.toNat_ofNat, Nat.mod_eq_of_lt (by omega), Nat.and_two_pow_sub_one_eq_mod,
    BitVec.toNat_setWidth, BitVec.toNat_setWidth]
  exact Nat.mod_eq_of_lt (lt_of_lt_of_le (Nat.mod_lt _ (by positivity)) hpow)

/-- CTRL keeps bits 1:0 of the word (10_state.md R35). -/
theorem Ctrl.word_ofWord (w : Word) : (Ctrl.ofWord w).word = w &&& 0x3#32 := by
  have hmask : zext32 (w.setWidth 2) = w &&& 0x3#32 := zext32_setWidth w (by decide)
  rw [← hmask]
  refine BitVec.eq_of_getLsbD_eq fun i hi => ?_
  match i with
  | 0 => simp [Ctrl.word, Ctrl.ofWord]
  | 1 => simp [Ctrl.word, Ctrl.ofWord]
  | i + 2 => simp [Ctrl.word, Ctrl.ofWord]

/-- A read-write register reads back the writable bits of what was written. -/
theorem State.readReg_writeReg_same (s : State) {r : Reg} {mask : Word} (w : Word) (h : r.writableMask = some mask) :
    (s.writeReg r w).readReg r = w &&& mask := by
  cases r <;> cases h
  case ctrl => exact Ctrl.word_ofWord w
  case arg0 => exact (BitVec.and_allOnes).symm
  case arg1 => exact (BitVec.and_allOnes).symm
  all_goals exact zext32_setWidth w (by decide)

/-- Writing a read-write register leaves every other register as it reads. -/
theorem State.readReg_writeReg_of_ne (s : State) {r r' : Reg} {mask : Word} (w : Word) (h : r.writableMask = some mask)
    (hne : r' ≠ r) : (s.writeReg r w).readReg r' = s.readReg r' := by
  cases r <;> cases h <;> cases r' <;> try rfl
  -- left are the cases in which `r'` is `r`
  all_goals exact absurd rfl hne

/-- Writing a read-write register leaves the latch, STATUS and BUF, and the free contents of BUF, as they are. -/
theorem State.writeReg_frame (s : State) {r : Reg} {mask : Word} (w : Word) (h : r.writableMask = some mask) :
    (s.writeReg r w).lat = s.lat ∧ (s.writeReg r w).status = s.status ∧ (s.writeReg r w).buf = s.buf
      ∧ (s.writeReg r w).resets = s.resets := by
  cases r <;> cases h <;> exact ⟨rfl, rfl, rfl, rfl⟩

/-- A word of the window depends on BUF and the free contents only. -/
theorem State.windowWord_congr {s t : State} (hb : t.buf = s.buf) (hr : t.resets = s.resets) (k : Nat) :
    t.windowWord k = s.windowWord k := by
  simp only [State.windowWord, State.byteAt_congr hb hr]

/-- Two states read alike at a word address if their BUF and free contents, and the register there, read alike. -/
theorem State.busRead_congr {s t : State} {a : BitVec 11} (hb : t.buf = s.buf) (hr : t.resets = s.resets)
    (hreg : ∀ r, r.offset = wordAddr a → t.readReg r = s.readReg r) : t.busRead a = s.busRead a := by
  unfold State.busRead
  rw [State.windowWord_congr hb hr]
  cases h : regAt (wordAddr a) with
  | none => rfl
  | some r => simp only [hreg r (offset_of_regAt h)]

/-- Settles O18: each address is that of a register with a writable mask, and a write changes no other register. -/
theorem operandRegistersReadBack : Obligations.OperandRegistersReadBack := by
  intro s w A mask hA
  obtain ⟨r, rfl, hmask⟩ : ∃ r : Reg, A = r.addr ∧ r.writableMask = some mask := by
    simp only [List.mem_cons, Prod.mk.injEq, List.not_mem_nil, or_false] at hA
    obtain ⟨rfl, rfl⟩ | ⟨rfl, rfl⟩ | ⟨rfl, rfl⟩ | ⟨rfl, rfl⟩ | ⟨rfl, rfl⟩ | ⟨rfl, rfl⟩ | ⟨rfl, rfl⟩ | ⟨rfl, rfl⟩ := hA
    exacts [⟨.ctrl, rfl, rfl⟩, ⟨.src, rfl, rfl⟩, ⟨.dst, rfl, rfl⟩, ⟨.len, rfl, rfl⟩, ⟨.ecaddr, rfl, rfl⟩,
      ⟨.arg0, rfl, rfl⟩, ⟨.arg1, rfl, rfl⟩, ⟨.crcinit, rfl, rfl⟩]
  obtain ⟨hlat, hstatus, hbuf, hresets⟩ := s.writeReg_frame w hmask
  rw [s.busWrite_addr, State.busRead_addr]
  refine ⟨s.readReg_writeReg_same w hmask, fun B hB => ?_, hlat, hstatus, hbuf⟩
  refine State.busRead_congr hbuf hresets fun r' hr' => s.readReg_writeReg_of_ne w hmask ?_
  rintro rfl
  exact hB (hr'.symm.trans (wordAddr_addr r').symm)

end Sys2Proof.Machine

/-! ## PROOFS. The memory: the BUF window, the wired address bits, and the transactions of the host (20_memory.md). -/

namespace Sys2Proof.Machine

/-! ### Address bits 1:0 -/

/-- Clearing address bits 1:0 leaves the word address (20_memory.md R81). -/
theorem wordAddr_and_not_three (a : BitVec 11) : wordAddr (a &&& ~~~3#11) = wordAddr a := by
  have hmask : (~~~3#11).toNat / 2 ^ 2 = 2 ^ 9 - 1 := by decide
  have hdiv : (a &&& ~~~3#11).toNat / 2 ^ 2 = a.toNat / 2 ^ 2 := by
    rw [BitVec.toNat_and, Nat.and_div_two_pow, hmask, Nat.and_two_pow_sub_one_eq_mod]
    omega
  exact congrArg (4 * ·) hdiv

/-- A read depends on the word address only. -/
theorem State.busRead_eq_of_wordAddr_eq (s : State) {a b : BitVec 11} (h : wordAddr a = wordAddr b) :
    s.busRead a = s.busRead b := by
  unfold State.busRead inWindow
  rw [h]

/-- A write depends on the word address only. -/
theorem State.busWrite_eq_of_wordAddr_eq (s : State) {a b : BitVec 11} (h : wordAddr a = wordAddr b) (w : Word) :
    s.busWrite a w = s.busWrite b w := by
  unfold State.busWrite inWindow
  rw [h]

/-- Settles O15: an address and the address with bits 1:0 cleared reach the same word. -/
theorem addressLowBitsIgnored : Obligations.AddressLowBitsIgnored := by
  intro s A w
  have hword : wordAddr A = wordAddr (A &&& ~~~3#11) := (wordAddr_and_not_three A).symm
  exact ⟨s.busRead_eq_of_wordAddr_eq hword, s.busWrite_eq_of_wordAddr_eq hword w⟩

/-! ### Words of the BUF window -/

/-- The k-th word of the window stands at 0x400 + 4k (20_memory.md R82). -/
theorem wordAddr_ofNat_window {k : Nat} (hk : k < 256) :
    wordAddr (BitVec.ofNat 11 (0x400 + 4 * k)) = windowBase + 4 * k := by
  rw [wordAddr, BitVec.toNat_ofNat, windowBase]; omega

theorem inWindow_ofNat_window {k : Nat} (hk : k < 256) : inWindow (BitVec.ofNat 11 (0x400 + 4 * k)) = true := by
  simp [inWindow, wordAddr_ofNat_window hk]

/-- A read of the k-th word of the window is the word of BUF at 4k (20_memory.md R83). -/
theorem State.busRead_window (s : State) {k : Nat} (hk : k < 256) :
    s.busRead (BitVec.ofNat 11 (0x400 + 4 * k)) = s.windowWord (4 * k) := by
  simp [State.busRead, inWindow_ofNat_window hk, wordAddr_ofNat_window hk]

/-- A write of the k-th word of the window stores the word's bytes at 4k (20_memory.md R83). -/
theorem State.busWrite_window (s : State) {k : Nat} (hk : k < 256) (w : Word) :
    s.busWrite (BitVec.ofNat 11 (0x400 + 4 * k)) w = s.memWrite (4 * k) (bytesOfWord w) := by
  simp [State.busWrite, inWindow_ofNat_window hk, wordAddr_ofNat_window hk]

@[simp] theorem length_bytesOfWord (w : Word) : (bytesOfWord w).length = 4 := rfl

/-- A word is what its four bytes make (20_memory.md R83). -/
theorem wordOfBytes_bytesOfWord (w : Word) :
    wordOfBytes (w.extractLsb' 0 8) (w.extractLsb' 8 8) (w.extractLsb' 16 8) (w.extractLsb' 24 8) = w := by
  refine BitVec.eq_of_getLsbD_eq fun i hi => ?_
  obtain h | h | h | h : i / 8 = 0 ∨ i / 8 = 1 ∨ i / 8 = 2 ∨ i / 8 = 3 := by omega
  all_goals
    simp only [wordOfBytes, BitVec.getLsbD_or, BitVec.getLsbD_shiftLeft, BitVec.getLsbD_setWidth,
      BitVec.getLsbD_extractLsb']
    grind

/-- The bytes where a word has been stored are the word's, the first byte its bits 7:0 (20_memory.md R83). -/
theorem State.byteAt_memWrite_bytesOfWord (s : State) (w : Word) {a j : Nat} (hj : j < 4) (ha : a + j < 1024) :
    (s.memWrite a (bytesOfWord w)).byteAt (a + j) = w.extractLsb' (8 * j) 8 := by
  rw [s.byteAt_memWrite a _ ha, if_pos (by simp; omega), Nat.add_sub_cancel_left]
  match j with
  | 0 | 1 | 2 | 3 => rfl

/-- The word at an address where a word has been stored. -/
theorem State.windowWord_memWrite_bytesOfWord (s : State) (w : Word) {a : Nat} (ha : a + 4 ≤ 1024) :
    (s.memWrite a (bytesOfWord w)).windowWord a = w := by
  have hbyte {j : Nat} (hj : j < 4) := s.byteAt_memWrite_bytesOfWord w (a := a) hj (by omega)
  have hbyte0 : (s.memWrite a (bytesOfWord w)).byteAt a = w.extractLsb' 0 8 := hbyte (j := 0) (by decide)
  rw [State.windowWord, hbyte0, hbyte (j := 1) (by decide), hbyte (j := 2) (by decide), hbyte (j := 3) (by decide)]
  exact wordOfBytes_bytesOfWord w

/-- MemWrite keeps every byte outside its region (20_memory.md R91). -/
theorem State.bytesKeptOutside_memWrite (s : State) (a : Nat) (V : List Byte) :
    BytesKeptOutside s (s.memWrite a V) a V.length := by
  intro x hx hout
  rw [s.byteAt_memWrite a V hx, if_neg (by omega)]

/-- Settles O14: the k-th word of the window is the four bytes of BUF from 4k on. -/
theorem windowIsLittleEndian : Obligations.WindowIsLittleEndian := by
  intro s k w hk A t
  have hwrite : t = s.memWrite (4 * k) (bytesOfWord w) := s.busWrite_window hk w
  have hread (u : State) : u.busRead A = u.windowWord (4 * k) := u.busRead_window hk
  have hbyte {j : Nat} (hj : j < 4) := s.byteAt_memWrite_bytesOfWord w (a := 4 * k) hj (by omega)
  rw [hread, hread, hwrite]
  exact ⟨rfl, hbyte (j := 0) (by decide), hbyte (j := 1) (by decide), hbyte (j := 2) (by decide),
    hbyte (j := 3) (by decide), s.bytesKeptOutside_memWrite _ _, s.windowWord_memWrite_bytesOfWord w (by omega), rfl⟩

/-! ### Transactions -/

/-- The move of a host that presents a transaction: nothing while it is held, else its effect and the next line. -/
theorem State.hostMove_of_presented {s : State} {op : BusOp} (h : s.presented = some op) :
    s.hostMove = if s.stalls op then s else { s.busOp op with pos := s.pos + 1 } := by
  obtain ⟨l, hline, hop⟩ := Option.bind_eq_some_iff.1 h
  simp [State.hostMove, hline, hop]

/-- Out of reset, a presented transaction is selected exactly where the engine takes no step. -/
theorem State.sel_iff_of_presented {s : State} {op : BusOp} (hrst : OutOfReset s) (h : s.presented = some op) :
    s.sel = true ↔ s.engineTurn = false := by
  simp [s.sel_iff, h, hrst.1, hrst.2]

/-- Out of reset, ready is low exactly for a transaction that is held. -/
theorem State.ready_of_outOfReset {s : State} (hrst : OutOfReset s) (op : BusOp) : s.ready op = !s.stalls op := by
  simp [State.ready, State.outOfReset, hrst.1, hrst.2]

/-- Only a window transaction while Busy is held (20_memory.md R84, R85). -/
theorem State.stalls_eq_false {s : State} {op : BusOp} (h : s.status.busy = false ∨ op.addr.toNat < 0x400) :
    s.stalls op = false := by
  obtain hidle | haddr := h
  · exact State.stalls_of_idle hidle op
  · have hwin : inWindow op.addr = false := Bool.eq_false_iff.2 fun hin => by have := inWindow_iff.1 hin; omega
    simp [State.stalls, hwin]

/-- A held transaction lets the step pass. -/
theorem step_of_stalled {s : State} {op : BusOp} (hrst : OutOfReset s) (hturn : s.engineTurn = false)
    (h : s.presented = some op) (hs : s.stalls op = true) : step s = .next s.sampled.tick := by
  have hmove : s.sampled.tick.hostMove = _ := State.hostMove_of_presented h
  rw [step_of_not_engineTurn hrst hturn, hmove]
  exact congrArg Host.Outcome.next (if_pos hs)

/-- A transaction that is not held has its effect and moves the host on (20_memory.md R80). -/
theorem step_of_not_stalled {s : State} {op : BusOp} (hrst : OutOfReset s) (hturn : s.engineTurn = false)
    (h : s.presented = some op) (hs : s.stalls op = false) :
    step s = .next { s.sampled.tick.busOp op with pos := s.pos + 1 } := by
  have hmove : s.sampled.tick.hostMove = _ := State.hostMove_of_presented h
  rw [step_of_not_engineTurn hrst hturn, hmove]
  exact congrArg Host.Outcome.next (if_neg (Bool.eq_false_iff.1 hs))

/-- Where sel or ready is low, the host keeps its place and rdata its word, whatever the step is. -/
theorem step_keeps_host_of_not_completing {s t : State} {op : BusOp} (h : s.presented = some op)
    (hpins : s.sel = false ∨ s.ready op = false) (hstep : step s = .next t) : t.pos = s.pos ∧ t.rdata = s.rdata := by
  obtain ⟨-, hs⟩ | ⟨-, -, hs⟩ | ⟨-, -, -, hs⟩ | ⟨hlevel, hrstn, hturn, -⟩ := step_cases s
  case inl => -- held in reset
    cases hs.symm.trans hstep
    exact ⟨rfl, rfl⟩
  case inr.inl => -- the reset edge
    cases hs.symm.trans hstep
    exact ⟨rfl, rfl⟩
  case inr.inr.inl => -- the engine's move
    obtain ⟨i, e, code, rfl, -, he⟩ := State.engineMove_ends (hs.symm.trans hstep)
    exact ⟨he.operands.pos, he.operands.rdata⟩
  case inr.inr.inr => -- the host's move, where sel is high
    have hrst : OutOfReset s := ⟨hlevel, hrstn⟩
    have hsel : s.sel = true := (State.sel_iff_of_presented hrst h).2 hturn
    have hstall : s.stalls op = true := by simpa [hsel, State.ready_of_outOfReset hrst] using hpins
    cases (step_of_stalled hrst hturn h hstall).symm.trans hstep
    exact ⟨rfl, rfl⟩

/-- Out of reset and outside the engine's turn, a transaction that is not held completes: both pins are high, and the step has
its effect (20_memory.md R80, R84, R86). -/
theorem step_completes {s : State} {op : BusOp} (hrst : OutOfReset s) (hturn : s.engineTurn = false)
    (h : s.presented = some op) (hop : s.status.busy = false ∨ op.addr.toNat < 0x400) :
    s.sel = true ∧ s.ready op = true ∧ step s = .next { s.sampled.tick.busOp op with pos := s.pos + 1 } := by
  have hs : s.stalls op = false := State.stalls_eq_false hop
  exact ⟨(State.sel_iff_of_presented hrst h).2 hturn, by simp [State.ready_of_outOfReset hrst, hs],
    step_of_not_stalled hrst hturn h hs⟩

/-- Settles O19: the pins name the case of the step, and each case says what becomes of the transaction. -/
theorem hostTransactionCompletes : Obligations.HostTransactionCompletes := by
  intro s
  refine ⟨fun op hp hsel hready => ?_, fun op t hp => step_keeps_host_of_not_completing hp,
    fun op hrst hp hsel hready => ?_, fun A hrst hturn hp hop => ?_, fun A w hrst hturn hp hop => ?_⟩
  · obtain ⟨hlevel, hrstn, hs⟩ := (s.ready_iff op).1 hready
    exact step_of_not_stalled ⟨hlevel, hrstn⟩ ((s.sel_iff.1 hsel).2 hlevel hrstn) hp hs
  · have hs : s.stalls op = true := by simpa [State.ready_of_outOfReset hrst] using hready
    exact step_of_stalled hrst ((State.sel_iff_of_presented hrst hp).1 hsel) hp hs
  · have hread : s.sampled.tick.busRead A = s.busRead A := State.busRead_congr rfl rfl fun r _ => by cases r <;> rfl
    obtain ⟨hsel, hready, hstep⟩ := step_completes hrst hturn hp hop
    exact ⟨hsel, hready, by rw [hstep, State.busOp_read, hread]; rfl⟩
  · exact step_completes hrst hturn hp hop

/-- Settles O20: with steps left to the host it is not the engine's turn, and a window access while Busy is held. -/
theorem windowAccessHeldWhileBusy : Obligations.WindowAccessHeldWhileBusy := by
  intro s op hrst hbusy hwait hp haddr
  have hturn : s.engineTurn = false := s.engineTurn_eq_false_iff.2 fun _ => hwait
  have hs : s.stalls op = true := (State.stalls_of_busy hbusy op).trans (inWindow_iff.2 haddr)
  exact ⟨(State.sel_iff_of_presented hrst hp).2 hturn, by simp [State.ready_of_outOfReset hrst, hs],
    step_of_stalled hrst hturn hp hs⟩

end Sys2Proof.Machine

/-! ## PROOFS. Command words: the decoder against the encoder and the legality rule, what a command reads of the latch, and
the pseudo-commands (30_encoding.md). -/

namespace Sys2Proof

/-! ### The fields of a word -/

/-- A word is what its five fields make (30_encoding.md R110). -/
theorem CmdFields.word_wordFields (w : Word) : (wordFields w).word = w := by
  refine BitVec.eq_of_getLsbD_eq fun i hi => ?_
  obtain h | rfl | rfl | rfl | h : i < 8 ∨ i = 8 ∨ i = 9 ∨ i = 10 ∨ 11 ≤ i := by omega
  all_goals -- in each range of bits one field answers
    simp only [CmdFields.word, wordFields, opField, ciField, ibField, sbField, rsvField, BitVec.getLsbD_or,
      BitVec.getLsbD_shiftLeft, BitVec.getLsbD_setWidth, BitVec.getLsbD_extractLsb', Machine.getLsbD_bitWord]
    grind

/-- A row without flags is read only where no flag is set (30_encoding.md R116). -/
theorem plainRow_eq_legal_iff {ci ib sb : Bool} {i j : Instr} :
    plainRow ci ib sb i = .legal j ↔ ci = false ∧ ib = false ∧ sb = false ∧ i = j := by
  cases ci <;> cases ib <;> cases sb <;> simp [plainRow]

/-- The legality rule on the fields (30_encoding.md R117). -/
theorem CmdFields.wellFormed_iff (f : CmdFields) :
    f.wellFormed = true ↔ f.rsv = 0#21 ∧ f.op.toNat ≤ 0x0A ∧ (f.ci = false ∨ f.op = 0x09#8)
      ∧ (f.ib = false ∨ f.op = 0x09#8 ∨ f.op = 0x0A#8) ∧ (f.sb = false ∨ f.op = 0x09#8 ∨ f.op = 0x0A#8) := by
  simp [wellFormed, rsvZero, opDefined, ciAllowed, ibAllowed, sbAllowed, BitVec.le_def, and_assoc, or_assoc]

/-- The opcodes below 0x09 are those of the rows that take no flags (30_encoding.md R116). -/
theorem exists_instr_of_plain_op {op : BitVec 8} (h : op.toNat < 0x09) : ∃ i : Instr, i.fields = { op := op } := by
  obtain rfl | rfl | rfl | rfl | rfl | rfl | rfl | rfl | rfl : op = 0x00#8 ∨ op = 0x01#8 ∨ op = 0x02#8 ∨ op = 0x03#8
      ∨ op = 0x04#8 ∨ op = 0x05#8 ∨ op = 0x06#8 ∨ op = 0x07#8 ∨ op = 0x08#8 := by bv_omega
  exacts [⟨.nop, rfl⟩, ⟨.crc16, rfl⟩, ⟨.golayEnc, rfl⟩, ⟨.golayDec, rfl⟩, ⟨.interleave, rfl⟩, ⟨.deinterleave, rfl⟩,
    ⟨.scramble, rfl⟩, ⟨.sync, rfl⟩, ⟨.txsize, rfl⟩]

/-- Every choice of fields that the rule allows is an instruction's: no row of R116 is missing. -/
theorem CmdFields.exists_instr_of_wellFormed {f : CmdFields} (h : f.wellFormed = true) : ∃ i : Instr, i.fields = f := by
  obtain ⟨op, ci, ib, sb, rsv⟩ := f
  obtain ⟨rfl, hop, hci, hib, hsb⟩ : rsv = 0#21 ∧ _ := (wellFormed_iff _).1 h
  obtain hlt | rfl | rfl : op.toNat < 0x09 ∨ op = 0x09#8 ∨ op = 0x0A#8 := by dsimp only at hop; bv_omega
  · have h9 : op ≠ 0x09#8 := by rintro rfl; simp at hlt
    have hA : op ≠ 0x0A#8 := by rintro rfl; simp at hlt
    obtain rfl : ci = false := by simpa [h9] using hci
    obtain rfl : ib = false := by simpa [h9, hA] using hib
    obtain rfl : sb = false := by simpa [h9, hA] using hsb
    exact exists_instr_of_plain_op hlt
  · exact ⟨.encode ci ib sb, rfl⟩
  · obtain rfl : ci = false := by simpa using hci
    exact ⟨.decode ib sb, rfl⟩

/-! ### Decoder, encoder and legality rule -/

/-- What the decoder reads has the fields of the word: it drops no bit (30_encoding.md R116, R120). -/
theorem fields_of_decode {w : Word} {i : Instr} (h : decode w = .legal i) : i.fields = wordFields w := by
  unfold decode at h
  split at h
  · cases h
  next hrsv =>
    have hop {n : Nat} (hn : (opField w).toNat = n) : opField w = BitVec.ofNat 8 n := by simp [← hn]
    simp only [ne_eq, not_not] at hrsv
    dsimp only at h
    split at h
    case h_10 hn => -- ENCODE
      cases h
      simp [Instr.fields, wordFields, hop hn, hrsv]
    case h_11 hn => -- DECODE
      split at h
      · cases h
      next hci =>
        cases h
        simp [Instr.fields, wordFields, hop hn, hrsv, hci]
    case h_12 => cases h -- a reserved opcode
    all_goals -- the rows without flags
      next hn =>
        obtain ⟨hci, hib, hsb, rfl⟩ := plainRow_eq_legal_iff.1 h
        simp [Instr.fields, wordFields, hop hn, hrsv, hci, hib, hsb]

/-- Settles O2: the decoder reads back what the encoder writes, and an instruction it reads has the fields of the word. -/
theorem decodeEncodeAgree : Obligations.DecodeEncodeAgree := by
  intro w i
  constructor
  · intro h
    calc encode i = i.fields.word := rfl
      _ = (wordFields w).word := by rw [fields_of_decode h]
      _ = w := CmdFields.word_wordFields w
  · rintro rfl
    exact Machine.decode_encode i

/-- The decoder reads the words the legality rule allows, and no others (30_encoding.md R117, R120). -/
theorem exists_decode_eq_legal_iff (w : Word) : (∃ i, decode w = .legal i) ↔ legal w = true := by
  constructor
  · rintro ⟨i, hi⟩
    have hwf : i.fields.wellFormed = true := i.wellFormed_all
    rwa [fields_of_decode hi] at hwf
  · intro hw
    obtain ⟨i, hi⟩ := CmdFields.exists_instr_of_wellFormed hw
    exact ⟨i, (decodeEncodeAgree w i).2 ((congrArg CmdFields.word hi).trans (CmdFields.word_wordFields w))⟩

/-- An illegal word is read as no instruction. -/
theorem exists_decode_eq_illegal {w : Word} (h : legal w = false) : ∃ why, decode w = .illegal why := by
  cases hd : decode w with
  | illegal why => exact ⟨why, rfl⟩
  | legal i => simp [(exists_decode_eq_legal_iff w).1 ⟨i, hd⟩] at h

/-- Settles O3: the words that decode are the legal ones, and legality is the rule on the bits of the fields. -/
theorem legalRuleDecidesDecoding : Obligations.LegalRuleDecidesDecoding := fun w =>
  (exists_decode_eq_legal_iff w).trans (CmdFields.wellFormed_iff (wordFields w))

/-- Settles O1: the legal words are the words of their instructions, and each illegal one breaks one part of the rule. -/
theorem decodeOfSpecWords : Obligations.DecodeOfSpecWords := by
  have hread {w : Word} {i : Instr} : encode i = w → decode w = .legal i := (decodeEncodeAgree w i).2
  exact ⟨hread rfl, hread rfl, hread rfl, hread rfl, hread rfl, by decide, by decide, by decide⟩

end Sys2Proof

namespace Sys2Proof.Machine

/-! ### An illegal word -/

/-- The engine ends an illegal word with ILLEGAL_CMD (60_exceptions.md R302). -/
theorem State.engineMove_of_illegal {s : State} (h : legal s.lat.cmd = false) :
    s.engineMove = .next (s.completeWith errIllegalCmd) := by
  obtain ⟨why, hwhy⟩ := exists_decode_eq_illegal h
  simp [State.engineMove, hwhy]

/-- Settles O5: at its turn the engine moves, and its move on an illegal word only completes with the error. -/
theorem illegalWordCompletesWithError : Obligations.IllegalWordCompletesWithError := by
  intro s hrst hbusy hwait hill
  rw [step_of_engineTurn hrst (s.engineTurn_iff.2 ⟨hbusy, hwait⟩)]
  exact State.engineMove_of_illegal (s := s.sampled) hill

/-! ### What a command reads of the latch -/

/-- s with another operand latch. -/
def State.withLatch (s : State) (m : Latch) : State := { s with lat := m }

section
variable {s : State} {m : Latch}

/-! An operand is the same on another latch that agrees on its field (30_encoding.md R118, R119). -/

theorem State.opSrc_withLatch (h : m.src = s.lat.src) : (s.withLatch m).opSrc = s.opSrc := congrArg BitVec.toNat h
theorem State.opDst_withLatch (h : m.dst = s.lat.dst) : (s.withLatch m).opDst = s.opDst := congrArg BitVec.toNat h
theorem State.opLen_withLatch (h : m.len = s.lat.len) : (s.withLatch m).opLen = s.opLen := congrArg BitVec.toNat h
theorem State.opEc_withLatch (h : m.ecaddr = s.lat.ecaddr) : (s.withLatch m).opEc = s.opEc := congrArg BitVec.toNat h
theorem State.opInit_withLatch (h : m.crcinit = s.lat.crcinit) : (s.withLatch m).opInit = s.opInit := h
theorem State.opAnylen_withLatch (h : m.anylen = s.lat.anylen) : (s.withLatch m).opAnylen = s.opAnylen := h
theorem State.opData_withLatch (h : m.arg0.setWidth 12 = s.lat.arg0.setWidth 12) : (s.withLatch m).opData = s.opData := h
theorem State.opCodeword_withLatch (h : m.arg0.setWidth 23 = s.lat.arg0.setWidth 23) :
    (s.withLatch m).opCodeword = s.opCodeword := h
theorem State.opKnownZero_withLatch (h : m.arg1.setWidth 12 = s.lat.arg1.setWidth 12) :
    (s.withLatch m).opKnownZero = s.opKnownZero := h

end

/-- Two outcomes are next states that differ in the latch only, the second one's being `m`. -/
def EndsAlike (m : Latch) (o o' : Out) : Prop := ∃ t, o = .next t ∧ o' = .next (t.withLatch m)

theorem EndsAlike.next (m : Latch) (t : State) : EndsAlike m (.next t) (.next (t.withLatch m)) := ⟨t, rfl, rfl⟩

/-- With the same checks and the same effect, a checked command ends alike on another latch: no update of the state reads the
latch, so each commutes with changing it, by definition. -/
theorem EndsAlike.checked (s : State) (m : Latch) (badLength badAddress : Bool) (effect : State) :
    EndsAlike m (s.checked badLength badAddress effect)
      ((s.withLatch m).checked badLength badAddress (effect.withLatch m)) := by
  cases badLength with
  | true => exact .next m (s.completeWith errBadLength)
  | false =>
    cases badAddress with
    | true => exact .next m (s.completeWith errBadAddress)
    | false => exact .next m effect

/-- INTERLEAVE, DEINTERLEAVE and SCRAMBLE read SRC, DST and LEN only (30_encoding.md R118). -/
theorem EndsAlike.transform {s : State} {m : Latch} (hsrc : m.src = s.lat.src) (hdst : m.dst = s.lat.dst)
    (hlen : m.len = s.lat.len) (unit : List Byte → List Byte × Word) :
    EndsAlike m (s.transform unit) ((s.withLatch m).transform unit) := by
  simp only [State.transform, State.opSrc_withLatch hsrc, State.opDst_withLatch hdst, State.opLen_withLatch hlen]
  exact .checked s m _ _ _

/-- Each command ends alike on a latch with the same operands. -/
theorem exec_endsAlike {i : Instr} {s : State} {m : Latch} (h : sameOperands i s.lat m) :
    EndsAlike m (exec i s) (exec i (s.withLatch m)) := by
  cases i with
  | nop => exact .next m s.complete
  | crc16 =>
    obtain ⟨hsrc, hlen, hinit⟩ := h
    simp only [exec, execCrc16, State.opSrc_withLatch hsrc, State.opLen_withLatch hlen, State.opInit_withLatch hinit]
    exact .checked s m _ _ _
  | golayEnc =>
    simp only [exec, execGolayEnc, State.opData_withLatch h]
    exact .next m _
  | golayDec =>
    obtain ⟨hcodeword, hkz⟩ := h
    simp only [exec, execGolayDec, State.opCodeword_withLatch hcodeword, State.opKnownZero_withLatch hkz]
    exact .next m _
  | interleave | deinterleave | scramble =>
    obtain ⟨hsrc, hdst, hlen⟩ := h
    simp only [exec, execInterleave, execDeinterleave, execScramble]
    exact .transform hsrc hdst hlen _
  | sync =>
    simp only [exec, execSync, State.opSrc_withLatch h]
    exact .checked s m _ _ _
  | txsize =>
    simp only [exec, execTxsize, State.opLen_withLatch h]
    exact .checked s m _ _ _
  | encode ci ib sb =>
    obtain ⟨hsrc, hdst, hlen, hinit⟩ := h
    simp only [exec, execEncode, State.opSrc_withLatch hsrc, State.opDst_withLatch hdst, State.opLen_withLatch hlen,
      State.opInit_withLatch hinit]
    exact .checked s m _ _ _
  | decode ib sb =>
    obtain ⟨hsrc, hdst, hlen, hec, hinit, hanylen⟩ := h
    simp only [exec, execDecode, State.opSrc_withLatch hsrc, State.opDst_withLatch hdst, State.opLen_withLatch hlen,
      State.opEc_withLatch hec, State.opInit_withLatch hinit, State.opAnylen_withLatch hanylen]
    exact .checked s m _ _ _

/-- Settles O41, one case for each command. -/
theorem commandReadsListedOperandsOnly : Obligations.CommandReadsListedOperandsOnly := by
  intro i s m h
  obtain ⟨t, ht, hv⟩ := exec_endsAlike h
  exact ⟨t, t.withLatch m, ht, hv, rfl⟩

/-! ### Pseudo-commands -/

/-- The lines of a pseudo-command: its operand writes, then GO, then WAIT on the two lines after (30_encoding.md R123). -/
theorem goWait_eq (p : Nat) (ls : List HostLine) (i : Instr) :
    goWait p ls i = ls ++ .go i :: pseudoWait (p + (ls.length + 1)) := by
  simp [goWait]

@[simp] theorem length_wrbufLines (n a : Nat) (bs : List Byte) : (wrbufLines n a bs).length = n := by
  induction n generalizing a bs with
  | zero => rfl
  | succ n ih => simp [wrbufLines, ih]

/-- The k-th line of WRBUF writes the k-th four bytes, at the address 4k further on (30_encoding.md R123). -/
theorem getElem?_wrbufLines {n k : Nat} (a : Nat) (bs : List Byte) (h : k < n) :
    (wrbufLines n a bs)[k]? = some (.wrw (BitVec.ofNat 11 (windowBase + a + 4 * k))
      (wordOfBytes (bs.getD (4 * k) 0) (bs.getD (4 * k + 1) 0) (bs.getD (4 * k + 2) 0) (bs.getD (4 * k + 3) 0))) := by
  induction n generalizing a bs k with
  | zero => omega
  | succ n ih =>
    cases k with
    | zero => rfl
    | succ k =>
      have haddr : windowBase + (a + 4) + 4 * k = windowBase + a + 4 * (k + 1) := by omega
      have hbyte (j : Nat) : (bs.drop 4).getD (4 * k + j) 0 = bs.getD (4 * (k + 1) + j) 0 := by
        rw [getD_drop]; congr 1; omega
      have hbyte0 : (bs.drop 4).getD (4 * k) 0 = bs.getD (4 * (k + 1)) 0 := hbyte 0
      rw [wrbufLines, List.getElem?_cons_succ, ih _ _ (by omega), haddr, hbyte0, hbyte 1, hbyte 2, hbyte 3]

/-- Settles O59: the fixed lists are the model's lines, and WRBUF's lines are counted and read one by one. -/
theorem pseudoCommandExpansions : Obligations.PseudoCommandExpansions := by
  intro p x y z e ci ib sb
  exact ⟨rfl, rfl, rfl, goWait_eq p _ _, goWait_eq p _ _, goWait_eq p _ _, goWait_eq p _ _, goWait_eq p _ _,
    goWait_eq p _ _, goWait_eq p _ _, goWait_eq p _ _, goWait_eq p _ _, goWait_eq p _ _,
    fun a bs _ _ => ⟨length_wrbufLines _ _ _, fun k hk => getElem?_wrbufLines a bs hk⟩⟩

end Sys2Proof.Machine

/-! ## PROOFS. The CRC-16 generator and the CRC16 command (40_crc.md). -/

namespace Sys2Proof.Machine

/-! ### The generator -/

@[simp] theorem crc16_nil (init : BitVec 16) : crc16 init [] = init := rfl

@[simp] theorem crc16_cons (init : BitVec 16) (x : Byte) (X : List Byte) :
    crc16 init (x :: X) = crc16 (crcByte init x) X := rfl

/-- The register carries all that the bytes read so far have left (40_crc.md R141). -/
theorem crc16_append (init : BitVec 16) (X Y : List Byte) : crc16 init (X ++ Y) = crc16 (crc16 init X) Y :=
  List.foldl_append

/-- The model's shift is the one with the polynomial spelled out (40_crc.md R140). -/
theorem crcShift_eq_spelled : crcShift = crcShiftSpelled := rfl

/-- Eight shifts of the register with the byte at its top, the polynomial spelled out (40_crc.md R140). -/
theorem crcByte_eq_spelled (c : BitVec 16) (x : Byte) :
    crcByte c x = Nat.repeat crcShiftSpelled 8 (c ^^^ (x.setWidth 16 <<< 8)) := by
  rw [crcByte, crcShift_eq_spelled]

/-- The check value, over the ASCII string `123456789` (40_crc.md R141). -/
theorem crc16_checkString :
    crc16 0xFFFF#16 [0x31, 0x32, 0x33, 0x34, 0x35, 0x36, 0x37, 0x38, 0x39] = 0x29B1#16 := by decide +kernel

/-- Settles O43: one lemma for each of its four parts. -/
theorem crcInPieces : Obligations.CrcInPieces :=
  ⟨crc16_nil, fun init x => (crc16_cons init x []).trans (crcByte_eq_spelled init x), crc16_append, crc16_checkString⟩

/-! ### The command -/

/-- A region lies in BUF (20_memory.md R88). -/
theorem inRange_iff (a n : Nat) : inRange a n = true ↔ a + n ≤ 1024 := decide_eq_true_iff

/-- The effect of a command that writes RESULT0 and RESULT1 only (10_state.md R44, 60_exceptions.md R305). -/
theorem State.complete_setResults (s : State) (r0 r1 : Word) :
    (s.setResults r0 r1).complete = { s with result0 := r0, result1 := r1, status := statusPlain s } := rfl

theorem exec_crc16 (s : State) : exec .crc16 s = execCrc16 s := rfl

/-- CRC16 on a region that passes both checks has its effect (40_crc.md R143). -/
theorem execCrc16_of_inRange {s : State} (hlen : s.opLen ≤ 1024) (hsrc : s.opSrc + s.opLen ≤ 1024) :
    execCrc16 s = .next (s.setResults (zext32 (crc16 s.lat.crcinit (s.memRead s.opSrc s.opLen))) 0#32).complete := by
  have hlength : decide (Config.bufBytes < s.opLen) = false := decide_eq_false (Nat.not_lt.2 hlen)
  have haddress : (!inRange s.opSrc s.opLen) = false := by rw [(inRange_iff _ _).2 hsrc, Bool.not_true]
  exact State.checked_ok hlength haddress

/-- Settles O27: both checks pass, so the command writes its results and completes. -/
theorem crc16Result : Obligations.Crc16Result := by
  intro s hlen hsrc
  rw [exec_crc16, execCrc16_of_inRange hlen hsrc, State.complete_setResults]

end Sys2Proof.Machine

/-! ## PROOFS. The Golay code, its syndrome table and decoder, and the commands GOLAY_ENC and GOLAY_DEC (41_fec.md). -/

namespace Sys2Proof.Machine

/-! ### The remainder is linear -/

/-- Adding g where a bit is set is linear in the word and the bit. -/
theorem ite_xor_xor {w : Nat} (a b : Bool) (p q g : BitVec w) :
    (if (a ^^ b) = true then p ^^^ q ^^^ g else p ^^^ q)
      = (if a = true then p ^^^ g else p) ^^^ (if b = true then q ^^^ g else q) := by
  cases a with
  | false => cases b <;> simp [BitVec.xor_assoc]
  | true =>
    cases b with
    | false => simp only [Bool.xor_false, if_true, Bool.false_eq_true, if_false]; ac_rfl
    | true =>
      calc p ^^^ q = (p ^^^ q) ^^^ (g ^^^ g) := by rw [BitVec.xor_self, BitVec.xor_zero]
        _ = (p ^^^ g) ^^^ (q ^^^ g) := by ac_rfl

theorem golayReduce_xor (p q : BitVec 23) (k : Nat) : golayReduce (p ^^^ q) k = golayReduce p k ^^^ golayReduce q k := by
  simp only [golayReduce, BitVec.getLsbD_xor, ite_xor_xor]

theorem foldl_golayReduce_xor (ks : List Nat) (p q : BitVec 23) :
    ks.foldl golayReduce (p ^^^ q) = ks.foldl golayReduce p ^^^ ks.foldl golayReduce q := by
  induction ks generalizing p q with
  | nil => rfl
  | cons k ks ih => simp only [List.foldl_cons, golayReduce_xor, ih]

theorem golayRem_xor (p q : BitVec 23) : golayRem (p ^^^ q) = golayRem p ^^^ golayRem q := by
  simp only [golayRem, foldl_golayReduce_xor, BitVec.setWidth_xor]

/-- A polynomial of degree at most 10 is its own remainder (41_fec.md R160). -/
theorem foldl_golayReduce_of_low {p : BitVec 23} {ks : List Nat} (h : ∀ k ∈ ks, p.getLsbD k = false) :
    ks.foldl golayReduce p = p := by
  induction ks with
  | nil => rfl
  | cons k ks ih =>
    have hk : golayReduce p k = p := by simp [golayReduce, h k]
    rw [List.foldl_cons, hk, ih fun j hj => h j (List.mem_cons_of_mem k hj)]

@[simp] theorem golayRem_setWidth (r : BitVec 11) : golayRem (r.setWidth 23) = r := by
  rw [golayRem, foldl_golayReduce_of_low (by simp +decide), BitVec.setWidth_setWidth_of_le r (by decide), BitVec.setWidth_eq]

@[simp] theorem golayRem_zero : golayRem 0#23 = 0#11 := golayRem_setWidth 0#11

/-! ### The encoder -/

theorem dataField_xor (d1 d2 : BitVec 12) : dataField (d1 ^^^ d2) = dataField d1 ^^^ dataField d2 := by
  simp only [dataField, BitVec.setWidth_xor, BitVec.shiftLeft_xor_distrib]

theorem golayPar_xor (d1 d2 : BitVec 12) : golayPar (d1 ^^^ d2) = golayPar d1 ^^^ golayPar d2 := by
  rw [golayPar, dataField_xor, golayRem_xor, golayPar, golayPar]

/-- Data field and parity share no bit. -/
theorem dataField_or_setWidth (d : BitVec 12) (r : BitVec 11) :
    dataField d ||| r.setWidth 23 = dataField d ^^^ r.setWidth 23 := by
  refine BitVec.eq_of_getLsbD_eq fun i _ => ?_
  by_cases hi : i < 11
  · simp [dataField, hi]
  · simp [dataField, hi, r.getLsbD_of_ge i (by omega)]

theorem golayEnc_eq_xor (d : BitVec 12) : golayEnc d = dataField d ^^^ (golayPar d).setWidth 23 :=
  dataField_or_setWidth d (golayPar d)

theorem golayEnc_xor (d1 d2 : BitVec 12) : golayEnc (d1 ^^^ d2) = golayEnc d1 ^^^ golayEnc d2 := by
  simp only [golayEnc_eq_xor, dataField_xor, golayPar_xor, BitVec.setWidth_xor]
  ac_rfl

/-- Settles O44: every division step is linear, so the remainder is, and so are the two fields of a codeword. -/
theorem golayIsLinear : Obligations.GolayIsLinear := ⟨golayRem_xor, golayEnc_xor⟩

/-- Every codeword has remainder 0 (41_fec.md R163). -/
@[simp] theorem golayRem_golayEnc (d : BitVec 12) : golayRem (golayEnc d) = 0#11 := by
  rw [golayEnc_eq_xor, golayRem_xor, golayRem_setWidth, ← golayPar, BitVec.xor_self]

/-- The code is systematic: bits 22:11 of a codeword are its data (41_fec.md R162). -/
@[simp] theorem extractLsb'_golayEnc (d : BitVec 12) : (golayEnc d).extractLsb' 11 12 = d := by
  refine BitVec.eq_of_getLsbD_eq fun i hi => ?_
  have hdata : 11 + i < 23 := by omega
  simp [golayEnc, dataField, hi, hdata]

theorem golayEnc_injective {d1 d2 : BitVec 12} (h : golayEnc d1 = golayEnc d2) : d1 = d2 := by
  rw [← extractLsb'_golayEnc d1, h, extractLsb'_golayEnc]

/-- A word is its data field and its low 11 bits. -/
theorem dataField_xor_low (c : BitVec 23) : dataField (c.extractLsb' 11 12) ^^^ (c.setWidth 11).setWidth 23 = c := by
  refine BitVec.eq_of_getLsbD_eq fun i hi => ?_
  by_cases hlow : i < 11
  · simp [dataField, hi, hlow]
  · simp [dataField, hi, hlow, show i - 11 < 12 by omega, show 11 + (i - 11) = i by omega]

/-- A word of remainder 0 is the codeword of its data bits (41_fec.md R162). -/
theorem golayEnc_of_golayRem_eq_zero {c : BitVec 23} (h : golayRem c = 0#11) : golayEnc (c.extractLsb' 11 12) = c := by
  have hpar : golayPar (c.extractLsb' 11 12) = c.setWidth 11 := by
    rw [← dataField_xor_low c, golayRem_xor, golayRem_setWidth, ← golayPar] at h
    exact BitVec.xor_eq_zero_iff.1 h
  rw [golayEnc_eq_xor, hpar, dataField_xor_low]

/-! ### Division by g(x): codewords are its multiples -/

/-- Add x^i·g(x) where q has the term x^i, as `multipleOfG` spells it out (41_fec.md R161). -/
def addTerm (q : BitVec 12) (acc : BitVec 23) (i : Nat) : BitVec 23 :=
  if q.getLsbD i then acc ^^^ (0xC75#23 <<< i) else acc

/-- The polynomial product q(x)·g(x). -/
def gMultiple (q : BitVec 12) : BitVec 23 := (List.range 12).foldl (addTerm q) 0#23

theorem multipleOfG_iff (c : BitVec 23) (q : BitVec 12) : multipleOfG c q ↔ c = gMultiple q := Iff.rfl

theorem addTerm_xor (q1 q2 : BitVec 12) (a1 a2 : BitVec 23) (i : Nat) :
    addTerm (q1 ^^^ q2) (a1 ^^^ a2) i = addTerm q1 a1 i ^^^ addTerm q2 a2 i := by
  simp only [addTerm, BitVec.getLsbD_xor, ite_xor_xor]

theorem foldl_addTerm_xor (is : List Nat) (q1 q2 : BitVec 12) (a1 a2 : BitVec 23) :
    is.foldl (addTerm (q1 ^^^ q2)) (a1 ^^^ a2) = is.foldl (addTerm q1) a1 ^^^ is.foldl (addTerm q2) a2 := by
  induction is generalizing a1 a2 with
  | nil => rfl
  | cons i is ih => simp only [List.foldl_cons, addTerm_xor, ih]

theorem gMultiple_xor (q1 q2 : BitVec 12) : gMultiple (q1 ^^^ q2) = gMultiple q1 ^^^ gMultiple q2 :=
  foldl_addTerm_xor (List.range 12) q1 q2 0#23 0#23

@[simp] theorem gMultiple_zero : gMultiple 0#12 = 0#23 := by decide +kernel

theorem gMultiple_twoPow : ∀ i < 12, gMultiple (BitVec.twoPow 12 i) = Config.golayG <<< i := by decide +kernel

/-- Division steps subtract a multiple of g(x). -/
theorem exists_gMultiple_xor_foldl (ks : List Nat) (hks : ∀ k ∈ ks, k < 23) (p : BitVec 23) :
    ∃ q, p = gMultiple q ^^^ ks.foldl golayReduce p := by
  induction ks generalizing p with
  | nil => exact ⟨0#12, by simp⟩
  | cons k ks ih =>
    obtain ⟨q, hq⟩ := ih (fun j hj => hks j (List.mem_cons_of_mem k hj)) (golayReduce p k)
    rw [List.foldl_cons]
    cases hp : p.getLsbD k with
    | false =>
      have hreduce : golayReduce p k = p := by simp [golayReduce, hp]
      exact ⟨q, by rwa [hreduce] at hq ⊢⟩
    | true =>
      have hreduce : p = Config.golayG <<< (k - 11) ^^^ golayReduce p k := by
        rw [golayReduce, if_pos hp, BitVec.xor_comm p, ← BitVec.xor_assoc, BitVec.xor_self, BitVec.zero_xor]
      have hk : k - 11 < 12 := by have := hks k List.mem_cons_self; omega
      refine ⟨BitVec.twoPow 12 (k - 11) ^^^ q, ?_⟩
      rw [gMultiple_xor, gMultiple_twoPow _ hk, BitVec.xor_assoc, ← hq, ← hreduce]

/-- All bits from bit n on are zero. -/
def BitsBelow (p : BitVec 23) (n : Nat) : Prop := ∀ j, n ≤ j → p.getLsbD j = false

theorem bitsBelow_width (p : BitVec 23) : BitsBelow p 23 := fun j hj => p.getLsbD_of_ge j hj

/-- g(x) is monic of degree 11 (41_fec.md R161). -/
theorem getLsbD_golayG_eleven : Config.golayG.getLsbD 11 = true := by decide

theorem getLsbD_golayG_of_lt {i : Nat} (h : 11 < i) : Config.golayG.getLsbD i = false := by
  have hlt : Config.golayG.toNat < 2 ^ i :=
    calc Config.golayG.toNat < 2 ^ 12 := by decide
      _ ≤ 2 ^ i := Nat.pow_le_pow_right (by decide) h
  rw [← BitVec.testBit_toNat, Nat.testBit_lt_two_pow hlt]

/-- A division step cancels the leading term (41_fec.md R160). -/
theorem golayReduce_bitsBelow {p : BitVec 23} {m : Nat} (h : BitsBelow p (11 + m + 1)) :
    BitsBelow (golayReduce p (11 + m)) (11 + m) := by
  intro j hj
  unfold golayReduce
  cases hk : p.getLsbD (11 + m) with
  | false =>
    rcases Nat.eq_or_lt_of_le hj with rfl | hlt
    · exact hk
    · exact h j hlt
  | true =>
    have hm : 11 + m < 23 := BitVec.lt_of_getLsbD hk
    have hshift : 11 + m - 11 = m := by omega
    rw [if_pos rfl, BitVec.getLsbD_xor, BitVec.getLsbD_shiftLeft, hshift]
    rcases Nat.eq_or_lt_of_le hj with rfl | hlt
    · simp only [hk, Nat.add_sub_cancel, getLsbD_golayG_eleven, hm, Nat.not_lt.2 (Nat.le_add_left m 11), decide_true,
        decide_false, Bool.not_false, Bool.and_true, Bool.xor_self]
    · rw [h j hlt, getLsbD_golayG_of_lt (by omega), Bool.and_false, Bool.xor_false]

/-- The division ends with a polynomial of degree at most 10 (41_fec.md R160). -/
theorem foldl_golayReduce_bitsBelow {n : Nat} {p : BitVec 23} (h : BitsBelow p (11 + n)) :
    BitsBelow ((List.range' 11 n).reverse.foldl golayReduce p) 11 := by
  induction n generalizing p with
  | zero => exact h
  | succ n ih =>
    rw [List.range'_concat, List.reverse_append, Nat.one_mul]
    exact ih (golayReduce_bitsBelow h)

theorem BitsBelow.setWidth_setWidth {p : BitVec 23} (h : BitsBelow p 11) : (p.setWidth 11).setWidth 23 = p := by
  refine BitVec.eq_of_getLsbD_eq fun i hi => ?_
  by_cases hlow : i < 11
  · simp [hi, hlow]
  · simp [hlow, h i (Nat.le_of_not_lt hlow)]

/-- Division with remainder: p = q·g + REM(p) (41_fec.md R160). -/
theorem exists_gMultiple_xor_golayRem (p : BitVec 23) : ∃ q, p = gMultiple q ^^^ (golayRem p).setWidth 23 := by
  obtain ⟨q, hq⟩ := exists_gMultiple_xor_foldl (List.range' 11 12).reverse (by decide) p
  have hlow := foldl_golayReduce_bitsBelow (n := 12) (bitsBelow_width p)
  exact ⟨q, hq.trans (congrArg (gMultiple q ^^^ ·) hlow.setWidth_setWidth.symm)⟩

/-- A word of remainder 0 is a multiple of g(x). -/
theorem exists_multipleOfG {c : BitVec 23} (h : golayRem c = 0#11) : ∃ q, multipleOfG c q := by
  obtain ⟨q, hq⟩ := exists_gMultiple_xor_golayRem c
  rw [h] at hq
  exact ⟨q, (multipleOfG_iff c q).2 (by simpa using hq)⟩

/-! ### Weight -/

/-- The positions of the one bits. -/
def oneBits {w : Nat} (v : BitVec w) : Finset Nat := {i ∈ Finset.range w | v.getLsbD i}

theorem popcount_eq_card_oneBits {w : Nat} (v : BitVec w) : popcount v = (oneBits v).card := by
  rw [oneBits, ← Nat.count_eq_card_filter_range]
  simp [popcount, Nat.count]

@[simp] theorem mem_oneBits {w : Nat} (v : BitVec w) (i : Nat) : i ∈ oneBits v ↔ v.getLsbD i = true := by
  simpa [oneBits] using BitVec.lt_of_getLsbD

theorem eq_zero_of_popcount_eq_zero {w : Nat} {v : BitVec w} (h : popcount v = 0) : v = 0#w := by
  rw [popcount_eq_card_oneBits, Finset.card_eq_zero] at h
  refine BitVec.eq_of_getLsbD_eq fun i _ => ?_
  simpa [h] using mem_oneBits v i

theorem popcount_zero (w : Nat) : popcount 0#w = 0 := by simp [popcount]

theorem popcount_or_le {w : Nat} (u v : BitVec w) : popcount (u ||| v) ≤ popcount u + popcount v := by
  have hsub : oneBits (u ||| v) ⊆ oneBits u ∪ oneBits v := fun i => by simp
  simpa only [popcount_eq_card_oneBits] using (Finset.card_le_card hsub).trans (Finset.card_union_le _ _)

theorem popcount_xor_le {w : Nat} (u v : BitVec w) : popcount (u ^^^ v) ≤ popcount u + popcount v := by
  have hsub : oneBits (u ^^^ v) ⊆ oneBits u ∪ oneBits v := fun i => by
    cases hu : u.getLsbD i <;> simp [hu]
  simpa only [popcount_eq_card_oneBits] using (Finset.card_le_card hsub).trans (Finset.card_union_le _ _)

/-! ### The error patterns -/

theorem getLsbD_errorBit (i j : Nat) : (errorBit i).getLsbD j = (decide (i < 23) && decide (i = j)) :=
  BitVec.getLsbD_twoPow i j

theorem popcount_errorBit_le (i : Nat) : popcount (errorBit i) ≤ 1 := by
  rw [popcount_eq_card_oneBits]
  refine Finset.card_le_one.2 fun a ha b hb => ?_
  simp only [mem_oneBits, getLsbD_errorBit, Bool.and_eq_true, decide_eq_true_eq] at ha hb
  exact ha.2.symm.trans hb.2

theorem mem_errorPatterns (e : BitVec 23) : e ∈ errorPatterns ↔
    e = 0#23 ∨ (∃ i < 23, e = errorBit i) ∨ (∃ i < 23, ∃ j < i, e = errorBit i ||| errorBit j)
      ∨ ∃ i < 23, ∃ j < i, ∃ k < j, e = errorBit i ||| errorBit j ||| errorBit k := by
  simp only [errorPatterns, List.mem_append, List.mem_singleton, List.mem_map, List.mem_flatMap, List.mem_range, or_assoc,
    eq_comm (b := e)]

theorem popcount_le_three_of_mem_errorPatterns {e : BitVec 23} (h : e ∈ errorPatterns) : popcount e ≤ 3 := by
  rcases (mem_errorPatterns e).1 h with rfl | ⟨i, -, rfl⟩ | ⟨i, -, j, -, rfl⟩ | ⟨i, -, j, -, k, -, rfl⟩
  · simp [popcount_zero]
  · linarith [popcount_errorBit_le i]
  · linarith [popcount_or_le (errorBit i) (errorBit j), popcount_errorBit_le i, popcount_errorBit_le j]
  · linarith [popcount_or_le (errorBit i ||| errorBit j) (errorBit k), popcount_or_le (errorBit i) (errorBit j),
      popcount_errorBit_le i, popcount_errorBit_le j, popcount_errorBit_le k]

/-- Adding the pattern of a one bit removes it and keeps the others. -/
theorem getLsbD_xor_errorBit {e : BitVec 23} {i : Nat} (h : e.getLsbD i = true) (j : Nat) :
    (e ^^^ errorBit i).getLsbD j = (decide (i ≠ j) && e.getLsbD j) := by
  have hi : i < 23 := BitVec.lt_of_getLsbD h
  rw [BitVec.getLsbD_xor, getLsbD_errorBit, decide_eq_true hi, Bool.true_and]
  rcases eq_or_ne i j with rfl | hij
  · simp only [h, decide_true, Bool.xor_self, ne_eq, not_true_eq_false, decide_false, Bool.false_and]
  · simp only [hij, decide_false, Bool.xor_false, ne_eq, not_false_eq_true, decide_true, Bool.true_and]

/-- Removing a one bit lowers the weight by one. -/
theorem popcount_xor_errorBit {e : BitVec 23} {i : Nat} (h : e.getLsbD i = true) :
    popcount (e ^^^ errorBit i) + 1 = popcount e := by
  have hbits : oneBits (e ^^^ errorBit i) = (oneBits e).erase i := by
    ext j
    simp only [Finset.mem_erase, mem_oneBits, getLsbD_xor_errorBit h, Bool.and_eq_true, decide_eq_true_iff, ne_comm]
  rw [popcount_eq_card_oneBits, hbits, Finset.card_erase_add_one ((mem_oneBits e i).2 h), popcount_eq_card_oneBits]

theorem eq_zero_or_exists_top_bit (e : BitVec 23) : e = 0#23 ∨ ∃ i, e.getLsbD i = true ∧ BitsBelow e (i + 1) := by
  rcases (oneBits e).eq_empty_or_nonempty with hempty | hne
  · exact .inl (eq_zero_of_popcount_eq_zero (by rw [popcount_eq_card_oneBits, hempty, Finset.card_empty]))
  · refine .inr ⟨(oneBits e).max' hne, (mem_oneBits e _).1 ((oneBits e).max'_mem hne), fun j hj => ?_⟩
    by_contra hbit
    have hle : j ≤ (oneBits e).max' hne := (oneBits e).le_max' j ((mem_oneBits e j).2 (Bool.eq_true_of_not_eq_false hbit))
    omega

/-- A nonzero word is its top bit and a rest below it, of weight one less. -/
theorem eq_zero_or_eq_errorBit_or {e : BitVec 23} {n m : Nat} (hn : BitsBelow e n) (hw : popcount e ≤ m + 1) :
    e = 0#23 ∨ ∃ i < n, i < 23 ∧ ∃ r, e = errorBit i ||| r ∧ BitsBelow r i ∧ popcount r ≤ m := by
  refine (eq_zero_or_exists_top_bit e).imp_right fun ⟨i, hi, htop⟩ => ?_
  have hin : i < n := by
    by_contra hle
    exact Bool.false_ne_true ((hn i (Nat.le_of_not_lt hle)).symm.trans hi)
  have hi23 : i < 23 := BitVec.lt_of_getLsbD hi
  have hdrop := popcount_xor_errorBit hi
  refine ⟨i, hin, hi23, e ^^^ errorBit i, ?_, fun j hj => ?_, by omega⟩
  · refine BitVec.eq_of_getLsbD_eq fun j _ => ?_
    rw [BitVec.getLsbD_or, getLsbD_xor_errorBit hi, getLsbD_errorBit]
    rcases eq_or_ne i j with rfl | hij
    · simp only [hi, hi23, decide_true, Bool.and_true, Bool.true_or]
    · simp only [hij, decide_false, Bool.and_false, Bool.false_or, ne_eq, not_false_eq_true, decide_true, Bool.true_and]
  · rw [getLsbD_xor_errorBit hi]
    rcases Nat.eq_or_lt_of_le hj with rfl | hlt
    · simp only [ne_eq, not_true_eq_false, decide_false, Bool.false_and]
    · rw [htop j hlt, Bool.and_false]

theorem mem_errorPatterns_of_popcount_le_three {e : BitVec 23} (h : popcount e ≤ 3) : e ∈ errorPatterns := by
  rw [mem_errorPatterns]
  rcases eq_zero_or_eq_errorBit_or (bitsBelow_width e) h with h0 | ⟨i, -, hi, r, rfl, hr, hrw⟩
  · exact .inl h0
  rcases eq_zero_or_eq_errorBit_or hr hrw with rfl | ⟨j, hj, -, r, rfl, hr, hrw⟩
  · exact .inr (.inl ⟨i, hi, BitVec.or_zero⟩)
  rcases eq_zero_or_eq_errorBit_or hr hrw with rfl | ⟨k, hk, -, r, rfl, hr, hrw⟩
  · exact .inr (.inr (.inl ⟨i, hi, j, hj, by rw [BitVec.or_zero]⟩))
  rw [eq_zero_of_popcount_eq_zero (Nat.le_zero.1 hrw), BitVec.or_zero, ← BitVec.or_assoc]
  exact .inr (.inr (.inr ⟨i, hi, j, hj, k, hk, rfl⟩))

/-! ### The syndromes of the error patterns -/

/-- The set of the remainders of some words, as the one bits of a number. -/
def syndromeSet (es : List (BitVec 23)) : Nat := es.foldr (fun e m => m ||| 2 ^ (golayRem e).toNat) 0

theorem testBit_syndromeSet (es : List (BitVec 23)) (y : BitVec 11) :
    (syndromeSet es).testBit y.toNat = true ↔ ∃ e ∈ es, golayRem e = y := by
  induction es with
  | nil => simp [syndromeSet]
  | cons e es ih =>
    have hcons : syndromeSet (e :: es) = syndromeSet es ||| 2 ^ (golayRem e).toNat := rfl
    rw [hcons, Nat.testBit_or, Bool.or_eq_true, ih, Nat.testBit_two_pow, decide_eq_true_iff, BitVec.toNat_inj]
    simp [or_comm]

/-- The one enumeration behind the code: the error patterns have all 2048 syndromes (41_fec.md R164). All else on the table,
the distance and the decoder follows from it and the linearity of the remainder. -/
theorem syndromeSet_errorPatterns : syndromeSet errorPatterns = 2 ^ 2 ^ 11 - 1 := by decide +kernel

theorem exists_errorPattern (y : BitVec 11) : ∃ e ∈ errorPatterns, golayRem e = y := by
  rw [← testBit_syndromeSet, syndromeSet_errorPatterns, Nat.testBit_two_pow_sub_one, decide_eq_true_iff]
  exact y.isLt

theorem length_errorPatterns : errorPatterns.length = 2 ^ 11 := by decide +kernel

/-- As many patterns as syndromes, so no two patterns share one (41_fec.md R164). -/
theorem golayRem_injOn_errorPatterns : Set.InjOn golayRem {e | e ∈ errorPatterns} := by
  have hsurj : errorPatterns.toFinset.image golayRem = Finset.univ := by
    ext y; simpa using exists_errorPattern y
  have hcard : errorPatterns.toFinset.card ≤ (errorPatterns.toFinset.image golayRem).card :=
    calc errorPatterns.toFinset.card ≤ errorPatterns.length := List.toFinset_card_le _
      _ = (errorPatterns.toFinset.image golayRem).card := by
        rw [length_errorPatterns, hsurj, Finset.card_univ, ← FinEnum.card_eq_fintypeCard, FinEnum.card_bitVec]
  simpa using Finset.injOn_of_card_image_eq (Finset.card_image_le.antisymm hcard)

/-- Two words of weight at most 3 with one syndrome are equal (41_fec.md R164). -/
theorem eq_of_golayRem_eq {e1 e2 : BitVec 23} (h1 : popcount e1 ≤ 3) (h2 : popcount e2 ≤ 3)
    (h : golayRem e1 = golayRem e2) : e1 = e2 :=
  golayRem_injOn_errorPatterns (mem_errorPatterns_of_popcount_le_three h1) (mem_errorPatterns_of_popcount_le_three h2) h

/-! ### The syndrome table -/

/-- The search of the table finds a pattern, for every syndrome (41_fec.md R164). -/
theorem golayDT_spec (y : BitVec 11) : golayDT y ∈ errorPatterns ∧ golayRem (golayDT y) = y := by
  obtain ⟨e, he, hey⟩ := exists_errorPattern y
  have hsome : (errorPatterns.find? fun e => golayRem e == y).isSome :=
    List.find?_isSome.2 ⟨e, he, beq_iff_eq.2 hey⟩
  obtain ⟨e', he'⟩ := Option.isSome_iff_exists.1 hsome
  have hDT : golayDT y = e' := by rw [golayDT, he', Option.getD_some]
  rw [hDT]
  exact ⟨List.mem_of_find?_eq_some he', beq_iff_eq.1 (List.find?_some (p := fun e => golayRem e == y) he')⟩

theorem popcount_golayDT_le (y : BitVec 11) : popcount (golayDT y) ≤ 3 :=
  popcount_le_three_of_mem_errorPatterns (golayDT_spec y).1

@[simp] theorem golayRem_golayDT (y : BitVec 11) : golayRem (golayDT y) = y := (golayDT_spec y).2

/-- The table inverts the remainder on the patterns of weight at most 3 (41_fec.md R164). -/
theorem golayDT_golayRem {e : BitVec 23} (h : popcount e ≤ 3) : golayDT (golayRem e) = e :=
  eq_of_golayRem_eq (popcount_golayDT_le _) h (golayRem_golayDT _)

/-- Settles O46: the table inverts the remainder, and finds a pattern for every syndrome. -/
theorem syndromeTableIsBijection : Obligations.SyndromeTableIsBijection := by
  refine ⟨fun e => golayDT_golayRem, fun y => ⟨popcount_golayDT_le y, golayRem_golayDT y⟩, ?_⟩
  have hzero : golayDT (golayRem 0#23) = 0#23 := golayDT_golayRem (by rw [popcount_zero]; decide)
  rwa [golayRem_zero] at hzero

/-! ### The distance -/

/-- A word of weight at most n + m is the sum of words of weight at most n and m. -/
theorem exists_xor_of_popcount_le {n m : Nat} {c : BitVec 23} (h : popcount c ≤ n + m) :
    ∃ e1 e2, c = e1 ^^^ e2 ∧ popcount e1 ≤ n ∧ popcount e2 ≤ m := by
  induction n generalizing c with
  | zero => exact ⟨0#23, c, BitVec.zero_xor.symm, (popcount_zero 23).le, by omega⟩
  | succ n ih =>
    rcases eq_zero_or_exists_top_bit c with rfl | ⟨i, hi, -⟩
    · exact ⟨0#23, 0#23, BitVec.xor_self.symm, by simp [popcount_zero], by simp [popcount_zero]⟩
    · have hdrop := popcount_xor_errorBit hi
      obtain ⟨e1, e2, hsum, h1, h2⟩ := ih (c := c ^^^ errorBit i) (by omega)
      have hbit := popcount_errorBit_le i
      have hxor := popcount_xor_le (errorBit i) e1
      refine ⟨errorBit i ^^^ e1, e2, ?_, by omega, h2⟩
      rw [BitVec.xor_assoc, ← hsum, BitVec.xor_comm c, ← BitVec.xor_assoc, BitVec.xor_self, BitVec.zero_xor]

/-- No word of weight 1 to 6 has remainder 0 (41_fec.md R163). -/
theorem eq_zero_of_golayRem_eq_zero {c : BitVec 23} (h : golayRem c = 0#11) (hw : popcount c ≤ 6) : c = 0#23 := by
  obtain ⟨e1, e2, rfl, h1, h2⟩ := exists_xor_of_popcount_le (n := 3) (m := 3) hw
  rw [golayRem_xor] at h
  rw [eq_of_golayRem_eq h1 h2 (BitVec.xor_eq_zero_iff.1 h), BitVec.xor_self]

theorem seven_le_popcount_golayEnc_xor {d1 d2 : BitVec 12} (h : d1 ≠ d2) :
    7 ≤ popcount (golayEnc d1 ^^^ golayEnc d2) := by
  by_contra hlt
  have hzero : golayEnc d1 ^^^ golayEnc d2 = 0#23 := by
    refine eq_zero_of_golayRem_eq_zero ?_ (by omega)
    rw [golayRem_xor, golayRem_golayEnc, golayRem_golayEnc, BitVec.xor_self]
  exact h (golayEnc_injective (BitVec.xor_eq_zero_iff.1 hzero))

/-- Settles O45: two codewords that differ in at most 6 bits would sum to a nonzero word of weight at most 6 with
remainder 0. -/
theorem golayDistanceSeven : Obligations.GolayDistanceSeven :=
  ⟨golayRem_golayEnc, fun _ _ => seven_le_popcount_golayEnc_xor,
    ⟨0x001#12, 0x000#12, by decide, by decide +kernel⟩,
    fun _ _ => golayEnc_injective, by decide +kernel, by decide +kernel⟩

/-! ### The decoder -/

theorem GolayResult.eq_of_fields {r : GolayResult} {d : BitVec 12} {e : BitVec 23} {code : Nat} (hd : r.d = d)
    (he : r.e = e) (hcode : r.code = code) : r = { d := d, e := e, code := code } := by
  subst hd he hcode
  rfl

/-- The decoder moves the received word to a codeword by its correction pattern (41_fec.md R165). -/
theorem golayEnc_golayDec (cw : BitVec 23) (kz : BitVec 12) :
    golayEnc (golayDec cw kz).d = cw ^^^ (golayDec cw kz).e :=
  golayEnc_of_golayRem_eq_zero (by rw [golayRem_xor, golayRem_golayDT, BitVec.xor_self])

theorem popcount_golayDec_le (cw : BitVec 23) (kz : BitVec 12) : popcount (golayDec cw kz).e ≤ 3 :=
  popcount_golayDT_le _

theorem golayDec_code (cw : BitVec 23) (kz : BitVec 12) : (golayDec cw kz).code
    = if (golayDec cw kz).d &&& kz = 0#12 then popcount (golayDec cw kz).e else 15 :=
  ite_not _ _ _

/-- A codeword with at most three flips is corrected exactly (41_fec.md R167). -/
theorem golayDec_golayEnc_xor (d : BitVec 12) {e : BitVec 23} (kz : BitVec 12) (h : popcount e ≤ 3) :
    (golayDec (golayEnc d ^^^ e) kz).d = d ∧ (golayDec (golayEnc d ^^^ e) kz).e = e := by
  have he : golayDT (golayRem (golayEnc d ^^^ e)) = e := by
    rw [golayRem_xor, golayRem_golayEnc, BitVec.zero_xor, golayDT_golayRem h]
  refine ⟨?_, he⟩
  have hd : golayEnc (golayDec (golayEnc d ^^^ e) kz).d = golayEnc d ^^^ e ^^^ e := by
    rw [golayEnc_golayDec]; exact congrArg _ he
  rw [BitVec.xor_assoc, BitVec.xor_self, BitVec.xor_zero] at hd
  exact golayEnc_injective hd

/-- Where the decoder gives back the data, its pattern is the flips. -/
theorem golayDec_e_eq_of_d_eq {d : BitVec 12} {e : BitVec 23} {kz : BitVec 12}
    (h : (golayDec (golayEnc d ^^^ e) kz).d = d) : (golayDec (golayEnc d ^^^ e) kz).e = e := by
  have hword := golayEnc_golayDec (golayEnc d ^^^ e) kz
  rw [h, BitVec.xor_assoc] at hword
  have hsum : e ^^^ (golayDec (golayEnc d ^^^ e) kz).e = 0#23 := by simpa using hword.symm
  exact (BitVec.xor_eq_zero_iff.1 hsum).symm

/-- Settles O47: exact correction up to three flips, and from four on the pattern, of weight at most 3, is not the flips. -/
theorem golayDecoderGuarantee : Obligations.GolayDecoderGuarantee := by
  refine ⟨fun d0 e0 kz hw hkz => ?_, fun d0 e0 kz hw hd => ?_, fun cw kz => ?_, ?_⟩
  · obtain ⟨hd, he⟩ := golayDec_golayEnc_xor d0 kz hw
    have hcode := golayDec_code (golayEnc d0 ^^^ e0) kz
    rw [hd, he, BitVec.and_comm, if_pos hkz] at hcode
    exact GolayResult.eq_of_fields hd he hcode
  · have hle := popcount_golayDec_le (golayEnc d0 ^^^ e0) kz
    rw [golayDec_e_eq_of_d_eq hd] at hle
    omega
  · rw [golayDec_code]
    split
    · exact popcount_golayDec_le cw kz
    · rfl
  · rintro cw kz d e rfl hw
    exact golayDec_golayEnc_xor d kz hw

/-- Settles O48: at most three flips are corrected to the data, which meets no known-zero bit. -/
theorem uncorrectableFlagIsSound : Obligations.UncorrectableFlagIsSound := by
  refine ⟨fun cw kz => ?_, fun d0 e0 kz hkz hcode => ?_⟩
  · rw [golayDec_code]
    split
    · exact .inl (popcount_golayDec_le cw kz)
    · exact .inr rfl
  · by_contra hlt
    have hw : popcount e0 ≤ 3 := by omega
    obtain ⟨hd, he⟩ := golayDec_golayEnc_xor d0 kz hw
    rw [golayDec_code, hd, he, if_pos hkz] at hcode
    omega

/-! ### The commands -/

theorem exec_golayEnc (s : State) : exec .golayEnc s = execGolayEnc s := rfl

theorem exec_golayDec (s : State) : exec .golayDec s = execGolayDec s := rfl

theorem State.opData_eq_extractLsb' (s : State) : s.opData = s.lat.arg0.extractLsb' 0 12 :=
  BitVec.setWidth_eq_extractLsb' (by decide)

theorem State.opCodeword_eq_extractLsb' (s : State) : s.opCodeword = s.lat.arg0.extractLsb' 0 23 :=
  BitVec.setWidth_eq_extractLsb' (by decide)

theorem State.opKnownZero_eq_extractLsb' (s : State) : s.opKnownZero = s.lat.arg1.extractLsb' 0 12 :=
  BitVec.setWidth_eq_extractLsb' (by decide)

/-- Settles O28: the word is the codeword of the data, and a codeword is a multiple of g(x) as its remainder is 0. -/
theorem golayEncResult : Obligations.GolayEncResult := by
  intro s
  refine ⟨golayEnc (s.lat.arg0.extractLsb' 0 12), ?_, extractLsb'_golayEnc _,
    exists_multipleOfG (golayRem_golayEnc _), rfl, golayRem_golayEnc _, by decide +kernel⟩
  rw [exec_golayEnc, execGolayEnc, s.opData_eq_extractLsb', State.complete_setResults]

/-- The effect of a command that writes RESULT0, RESULT1 and UNCORR only (10_state.md R44, 60_exceptions.md R305). -/
theorem State.complete_setUncorr_setResults (s : State) (r0 r1 : Word) (b : Bool) :
    ((s.setResults r0 r1).setUncorr b).complete
      = { s with result0 := r0, result1 := r1, status := statusDone s s.status.sync s.status.crcOk b } := rfl

/-- Settles O29: no check precedes the effect. -/
theorem golayDecResult : Obligations.GolayDecResult := by
  intro s
  rw [exec_golayDec, execGolayDec, s.opCodeword_eq_extractLsb', s.opKnownZero_eq_extractLsb',
    State.complete_setUncorr_setResults]
  rfl

end Sys2Proof.Machine

/-! ## PROOFS. The interleaver and the scrambler, and the commands INTERLEAVE, DEINTERLEAVE and SCRAMBLE
(42_interleave_scramble.md). -/

namespace Sys2Proof.Machine

/-! ### The multiplier -/

theorem isPrime_iff (p : Nat) : isPrime p = true ↔ p.Prime := by
  simp only [isPrime, Nat.prime_def_lt', Bool.and_eq_true, decide_eq_true_eq, List.all_eq_true, List.mem_range'_1,
    bne_iff_ne, ne_eq, Nat.dvd_iff_mod_eq_zero]
  refine and_congr_right fun _ => forall_congr' fun d => ?_
  rw [and_imp, show d < 2 + (p - 2) ↔ d < p by omega]

/-- Where a prime lies below n, the search answers a prime below n that is not below that one. -/
theorem largestPrimeBelow_spec {q n : Nat} (hq : q.Prime) (hn : q < n) :
    (largestPrimeBelow n).Prime ∧ largestPrimeBelow n < n ∧ q ≤ largestPrimeBelow n := by
  induction n with
  | zero => omega
  | succ n ih =>
    rw [largestPrimeBelow]
    split
    case isTrue h => exact ⟨(isPrime_iff n).1 h, Nat.lt_succ_self n, Nat.le_of_lt_succ hn⟩
    case isFalse h =>
      have hne : q ≠ n := by rintro rfl; exact h ((isPrime_iff q).2 hq)
      obtain ⟨hprime, hlt, hle⟩ := ih (by omega)
      exact ⟨hprime, by omega, hle⟩

section
variable {n : Nat}

theorem not_prime_eight_mul (hn : 1 ≤ n) : ¬ (8 * n).Prime :=
  Nat.not_prime_of_dvd_of_lt (m := 2) (by omega) le_rfl (by omega)

/-- 7 is a prime below every number of bits, so the search for the multiplier succeeds. -/
theorem ilB_spec (hn : 1 ≤ n) : (ilB (8 * n)).Prime ∧ ilB (8 * n) < 8 * n :=
  have h := largestPrimeBelow_spec (q := 7) (n := 8 * n) (by decide) (by omega)
  ⟨h.1, h.2.1⟩

theorem le_ilB {q N : Nat} (hq : q.Prime) (hN : q < N) : q ≤ ilB N := (largestPrimeBelow_spec hq hN).2.2

/-- If the multiplier p divided N, then 2p ≤ N, and Bertrand's postulate gives a greater prime below N. -/
theorem coprime_ilB (hn : 1 ≤ n) : Nat.Coprime (ilB (8 * n)) (8 * n) := by
  obtain ⟨hprime, hlt⟩ := ilB_spec hn
  refine (Nat.Prime.coprime_iff_not_dvd hprime).2 fun ⟨c, hc⟩ => ?_
  obtain ⟨q, hq, hpq, hq2⟩ := Nat.exists_prime_lt_and_le_two_mul _ hprime.ne_zero
  have hc2 : 2 ≤ c := (Nat.two_le_iff c).2 ⟨by rintro rfl; omega, by rintro rfl; omega⟩
  have hqN : q ≤ 8 * n := calc
    q ≤ ilB (8 * n) * 2 := by omega
    _ ≤ ilB (8 * n) * c := Nat.mul_le_mul_left _ hc2
    _ = 8 * n := hc.symm
  have hne : q ≠ 8 * n := fun h => not_prime_eight_mul hn (h ▸ hq)
  exact absurd (le_ilB hq (lt_of_le_of_ne hqN hne)) (Nat.not_le.2 hpq)

/-! ### The permutation of the positions -/

theorem ilB_mul_mod_lt (hn : 1 ≤ n) (i : Nat) : ilB (8 * n) * i % (8 * n) < 8 * n := Nat.mod_lt _ (by omega)

/-- The coprime multiplier can be cancelled, so no two bits move to one position (42_interleave_scramble.md R203). -/
theorem ilB_mul_mod_injOn (hn : 1 ≤ n) : Set.InjOn (fun i => ilB (8 * n) * i % (8 * n)) {i | i < 8 * n} := by
  intro i hi j hj (hij : ilB (8 * n) * i ≡ ilB (8 * n) * j [MOD 8 * n])
  exact (Nat.ModEq.cancel_left_of_coprime (coprime_ilB hn).symm hij).eq_of_lt_of_lt hi hj

/-- Every position is reached (42_interleave_scramble.md R203). -/
theorem exists_ilB_mul_mod_eq {k : Nat} (hk : k < 8 * n) : ∃ i < 8 * n, ilB (8 * n) * i % (8 * n) = k := by
  obtain ⟨i, hi, hik⟩ := Nat.exists_mul_mod_eq_of_coprime k (coprime_ilB (n := n) (by omega)) (by omega)
  exact ⟨i, hi, hik.trans (Nat.mod_eq_of_lt hk)⟩

end

/-- Settles O49: the search finds the largest prime, and Bertrand's postulate makes it coprime. -/
theorem multiplierIsLargestPrime : Obligations.MultiplierIsLargestPrime := fun _ hn =>
  ⟨(ilB_spec hn).1, (ilB_spec hn).2, fun _ => le_ilB, coprime_ilB hn⟩

/-! ### The interleaver and its inverse -/

/-- The assignments `IBIT(Y, pos i) <- val i` for i below m, in rising order: the loop of 42_interleave_scramble.md R201. -/
def assignIbits (pos : Nat → Nat) (val : Nat → Bool) (m : Nat) (Y : List Byte) : List Byte :=
  (List.range m).foldl (fun Y i => setIbit Y (pos i) (val i)) Y

section
variable (pos : Nat → Nat) (val : Nat → Bool) (Y : List Byte)

theorem assignIbits_zero : assignIbits pos val 0 Y = Y := rfl

theorem assignIbits_succ (m : Nat) :
    assignIbits pos val (m + 1) Y = setIbit (assignIbits pos val m Y) (pos m) (val m) := by
  simp [assignIbits, List.range_succ]

@[simp] theorem length_assignIbits (m : Nat) : (assignIbits pos val m Y).length = Y.length := by
  induction m with
  | zero => rfl
  | succ m ih => rw [assignIbits_succ, length_setIbit, ih]

end

/-- A bit assigned at a position that no other assignment shares reads back. -/
theorem ibit_assignIbits {pos : Nat → Nat} {val : Nat → Bool} {Y : List Byte} {m : Nat}
    (hpos : ∀ i < m, pos i < 8 * Y.length) (hinj : Set.InjOn pos {i | i < m}) {i : Nat} (hi : i < m) :
    ibit (assignIbits pos val m Y) (pos i) = val i := by
  induction m with
  | zero => omega
  | succ m ih =>
    rw [assignIbits_succ, ibit_setIbit _ _ _ (by simpa using hpos m (by omega))]
    by_cases him : i = m
    · rw [him, if_pos rfl]
    · have hne : pos i ≠ pos m := fun h => him (hinj hi (Nat.lt_succ_self m) h)
      rw [if_neg hne]
      exact ih (fun j hj => hpos j (by omega)) (hinj.mono fun j (hj : j < m) => Nat.lt_succ_of_lt hj) (by omega)

theorem interleaveBytes_eq_assignIbits (X : List Byte) :
    interleaveBytes X
      = assignIbits (fun i => ilB (8 * X.length) * i % (8 * X.length)) (ibit X) (8 * X.length) (zeroBytes X.length) :=
  rfl

@[simp] theorem length_interleaveBytes (X : List Byte) : (interleaveBytes X).length = X.length := by
  simp [interleaveBytes_eq_assignIbits, zeroBytes]

@[simp] theorem length_deinterleaveBytes (X : List Byte) : (deinterleaveBytes X).length = X.length :=
  length_packLsbN _ _

/-- Bit i moves to position (b·i) mod N (42_interleave_scramble.md R201). -/
theorem ibit_interleaveBytes (X : List Byte) {i : Nat} (hi : i < 8 * X.length) :
    ibit (interleaveBytes X) (ilB (8 * X.length) * i % (8 * X.length)) = ibit X i := by
  have hn : 1 ≤ X.length := by omega
  rw [interleaveBytes_eq_assignIbits]
  exact ibit_assignIbits (fun j _ => by simpa [zeroBytes] using ilB_mul_mod_lt hn j) (ilB_mul_mod_injOn hn) hi

/-- Bit i comes from position (b·i) mod N (42_interleave_scramble.md R202). -/
theorem ibit_deinterleaveBytes (X : List Byte) {i : Nat} (hi : i < 8 * X.length) :
    ibit (deinterleaveBytes X) i = ibit X (ilB (8 * X.length) * i % (8 * X.length)) := by
  simp [deinterleaveBytes, ibit_packLsbN _ _ hi, hi]

theorem deinterleaveBytes_interleaveBytes (X : List Byte) : deinterleaveBytes (interleaveBytes X) = X := by
  refine eq_of_ibit (by simp) fun i hi => ?_
  simp only [length_deinterleaveBytes, length_interleaveBytes] at hi
  rw [ibit_deinterleaveBytes _ (by simpa using hi), length_interleaveBytes, ibit_interleaveBytes X hi]

theorem interleaveBytes_deinterleaveBytes (X : List Byte) : interleaveBytes (deinterleaveBytes X) = X := by
  refine eq_of_ibit (by simp) fun k hk => ?_
  simp only [length_deinterleaveBytes, length_interleaveBytes] at hk
  obtain ⟨i, hi, rfl⟩ := exists_ilB_mul_mod_eq hk
  have hmove := ibit_interleaveBytes (deinterleaveBytes X) (i := i) (by simpa using hi)
  rw [length_deinterleaveBytes] at hmove
  rw [hmove, ibit_deinterleaveBytes X hi]

/-- Position 0 is b·0 mod N (42_interleave_scramble.md R203). -/
theorem ibit_interleaveBytes_zero {X : List Byte} (hX : X ≠ []) : ibit (interleaveBytes X) 0 = ibit X 0 := by
  have hlen := List.length_pos_of_ne_nil hX
  simpa using ibit_interleaveBytes X (i := 0) (by omega)

/-- Settles O50: each composition is the identity on every bit. -/
theorem interleaverIsBijection : Obligations.InterleaverIsBijection := fun X hX =>
  ⟨deinterleaveBytes_interleaveBytes X, interleaveBytes_deinterleaveBytes X, length_interleaveBytes X,
    ibit_interleaveBytes_zero hX⟩

/-! ### The LFSR -/

/-- The LFSR k steps after its seed (42_interleave_scramble.md R204). -/
def lfsrAt (k : Nat) : BitVec 15 := Nat.repeat lfsrNext k Config.scrSeed

theorem lfsrAt_zero : lfsrAt 0 = 0x4A80#15 := rfl

theorem lfsrAt_succ (k : Nat) : lfsrAt (k + 1) = lfsrNext (lfsrAt k) := rfl

/-- One step moves every bit down by one and puts the output on top (42_interleave_scramble.md R204). -/
theorem getLsbD_lfsrNext (s : BitVec 15) {j : Nat} (hj : j < 15) :
    (lfsrNext s).getLsbD j = if j = 14 then lfsrOut s else s.getLsbD (j + 1) := by
  by_cases h14 : j = 14
  · subst h14
    cases h : lfsrOut s <;> simp [lfsrNext, h]
  · have hlow : ((if lfsrOut s then 1#15 else 0#15) <<< 14).getLsbD j = false := by
      simp [BitVec.getLsbD_shiftLeft, show j < 14 by omega]
    rw [lfsrNext, BitVec.getLsbD_or, hlow, if_neg h14, Bool.or_false, BitVec.getLsbD_ushiftRight, Nat.add_comm]

/-- The state holds the last fifteen bits of the sequence of seed bits and outputs (42_interleave_scramble.md R204). -/
theorem getLsbD_lfsrAt (k : Nat) {j : Nat} (hj : j < 15) :
    (lfsrAt k).getLsbD j = if k + j < 15 then (0x4A80#15).getLsbD (k + j) else lfsrOut (lfsrAt (k + j - 15)) := by
  induction k generalizing j with
  | zero => rw [Nat.zero_add, if_pos hj, lfsrAt_zero]
  | succ k ih =>
    rw [lfsrAt_succ, getLsbD_lfsrNext _ hj]
    by_cases h14 : j = 14
    · rw [if_pos h14, if_neg (by omega), show k + 1 + j - 15 = k by omega]
    · rw [if_neg h14, ih (by omega), Nat.add_right_comm k 1 j, Nat.add_assoc k j 1]

/-! ### The scrambler -/

@[simp] theorem length_scrambleBits (s : BitVec 15) (bs : List Bool) : (scrambleBits s bs).1.length = bs.length := by
  induction bs generalizing s with
  | nil => rfl
  | cons b bs ih => simp [scrambleBits, ih]

/-- Stepping first and then k times is stepping k + 1 times. -/
theorem repeat_lfsrNext_lfsrNext (k : Nat) (s : BitVec 15) :
    Nat.repeat lfsrNext k (lfsrNext s) = Nat.repeat lfsrNext (k + 1) s := by
  induction k with
  | zero => rfl
  | succ k ih => exact congrArg lfsrNext ih

/-- Bit k is XORed with the output of the state after k steps (42_interleave_scramble.md R205). -/
theorem getD_scrambleBits (s : BitVec 15) (bs : List Bool) {k : Nat} (hk : k < bs.length) :
    (scrambleBits s bs).1.getD k false = (bs.getD k false ^^ lfsrOut (Nat.repeat lfsrNext k s)) := by
  induction bs generalizing s k with
  | nil => simp at hk
  | cons b bs ih =>
    cases k with
    | zero => rfl
    | succ k =>
      rw [← repeat_lfsrNext_lfsrNext]
      exact ih (lfsrNext s) (Nat.lt_of_succ_lt_succ hk)

/-- The LFSR steps once for each bit (42_interleave_scramble.md R205). -/
theorem scrambleBits_state (s : BitVec 15) (bs : List Bool) :
    (scrambleBits s bs).2 = Nat.repeat lfsrNext bs.length s := by
  induction bs generalizing s with
  | nil => rfl
  | cons b bs ih => exact (ih (lfsrNext s)).trans (repeat_lfsrNext_lfsrNext _ s)

@[simp] theorem length_scrambleBytes (X : List Byte) : (scrambleBytes X).1.length = X.length := length_packLsbN _ _

theorem ibit_scrambleBytes (X : List Byte) {k : Nat} (hk : k < 8 * X.length) :
    ibit (scrambleBytes X).1 k = (ibit X k ^^ lfsrOut (lfsrAt k)) := by
  rw [scrambleBytes, ibit_packLsbN _ _ hk, getD_scrambleBits _ _ (by simpa using hk), getD_indexBits X hk, lfsrAt]

theorem scrambleBytes_state (X : List Byte) : (scrambleBytes X).2 = lfsrAt (8 * X.length) := by
  rw [scrambleBytes, scrambleBits_state, length_indexBits, lfsrAt]

/-- Each bit is XORed twice with the same mask bit (42_interleave_scramble.md R206). -/
theorem scrambleBytes_scrambleBytes (X : List Byte) : (scrambleBytes (scrambleBytes X).1).1 = X := by
  refine eq_of_ibit (by simp) fun k hk => ?_
  simp only [length_scrambleBytes] at hk
  rw [ibit_scrambleBytes _ (by simpa using hk), ibit_scrambleBytes X hk, Bool.xor_assoc, Bool.xor_self, Bool.xor_false]

/-- Settles O51: DESCRAMBLE is SCRAMBLE by definition (30_encoding.md R123). -/
theorem scramblerIsInvolution : Obligations.ScramblerIsInvolution := ⟨scrambleBytes_scrambleBytes, rfl⟩

/-! ### The mask -/

theorem maskBit_eq (X : List Byte) {k : Nat} (hk : k < 8 * X.length) : maskBit X k = lfsrOut (lfsrAt k) := by
  rw [maskBit, ibit_scrambleBytes X hk, Bool.xor_comm, ← Bool.xor_assoc, Bool.xor_self, Bool.false_xor]

/-- Bit j of the state after k steps is m_(k+j-15) (42_interleave_scramble.md R204). -/
theorem getLsbD_lfsrAt_eq_maskFromSeed (X : List Byte) {k j : Nat} (hk : k ≤ 8 * X.length) (hj : j < 15) :
    (lfsrAt k).getLsbD j = maskFromSeed X (k + j) := by
  rw [getLsbD_lfsrAt k hj, maskFromSeed]
  split
  case isTrue => rfl
  case isFalse => rw [maskBit_eq X (by omega)]

/-- Settles O52: the mask bit at k is the output of the state after k steps, whose bits 0 and 1 are m_(k-15) and m_(k-14). -/
theorem scrambleMaskRecurrence : Obligations.ScrambleMaskRecurrence := by
  refine ⟨fun X Y k hX hY => ?_, fun X k hk => ?_, fun X j hj => ?_⟩
  · rw [maskBit_eq X hX, maskBit_eq Y hY]
  · rw [maskBit_eq X hk, lfsrOut, getLsbD_lfsrAt_eq_maskFromSeed X hk.le (by decide),
      getLsbD_lfsrAt_eq_maskFromSeed X hk.le (by decide), Nat.add_zero]
  · rw [scrambleBytes_state, getLsbD_lfsrAt_eq_maskFromSeed X le_rfl hj]

/-! ### The commands -/

/-- t is s after a command that wrote the byte string Y to the destination region and r0 to RESULT0, and completed without an
error (42_interleave_scramble.md R207 to R209). -/
structure RegionWritten (s t : State) (Y : List Byte) (r0 : Word) : Prop where
  operands : OperandsKept s t
  status : t.status = statusPlain s
  result0 : t.result0 = r0
  result1 : t.result1 = 0#32
  region : t.memRead s.opDst s.opLen = Y
  outside : BytesKeptOutside s t s.opDst s.opLen

/-- A byte string as long as the region, written, and the results set: the command's effect. -/
theorem RegionWritten.of_effect {s : State} {Y : List Byte} (hY : Y.length = s.opLen) (hdst : s.opDst + s.opLen ≤ 1024)
    (r0 : Word) : RegionWritten s ((s.memWrite s.opDst Y).setResults r0 0).complete Y r0 where
  operands := by constructor <;> rfl
  status := rfl
  result0 := rfl
  result1 := rfl
  region := by rw [← hY] at hdst ⊢; exact s.memRead_memWrite s.opDst Y hdst
  outside := by rw [← hY]; exact s.bytesKeptOutside_memWrite s.opDst Y

/-- INTERLEAVE, DEINTERLEAVE and SCRAMBLE on regions that pass both checks write what their unit makes of the source region. -/
theorem exec_regionWritten {i : Instr} {s : State} {unit : List Byte → List Byte × Word} (hexec : exec i s = s.transform unit)
    (hunit : ∀ X, (unit X).1.length = X.length) (hpos : 1 ≤ s.opLen) (hlen : s.opLen ≤ 1024)
    (hsrc : s.opSrc + s.opLen ≤ 1024) (hdst : s.opDst + s.opLen ≤ 1024) :
    ∃ t, exec i s = .next t
      ∧ RegionWritten s t (unit (s.memRead s.opSrc s.opLen)).1 (unit (s.memRead s.opSrc s.opLen)).2 :=
  ⟨_, hexec.trans (State.transform_eq_next.2 (.inr (.inr ⟨⟨by omega, hlen⟩, ⟨hsrc, hdst⟩, rfl⟩))),
    .of_effect (by rw [hunit, State.length_memRead]) hdst _⟩

theorem exec_interleave (s : State) :
    exec .interleave s = s.transform fun X => (interleaveBytes X, BitVec.ofNat 32 (ilB (8 * X.length))) := rfl

theorem exec_deinterleave (s : State) :
    exec .deinterleave s = s.transform fun X => (deinterleaveBytes X, BitVec.ofNat 32 (ilB (8 * X.length))) := rfl

theorem exec_scramble (s : State) :
    exec .scramble s = s.transform fun X => ((scrambleBytes X).1, zext32 (scrambleBytes X).2) := rfl

/-- Settles O30: the region written is the source region interleaved. -/
theorem interleaveResult : Obligations.InterleaveResult := by
  intro s hpos hlen hsrc hdst
  obtain ⟨t, ht, hw⟩ := exec_regionWritten (exec_interleave s) length_interleaveBytes hpos hlen hsrc hdst
  have hbits := fun i => ibit_interleaveBytes (s.memRead s.opSrc s.opLen) (i := i)
  have hmult := hw.result0
  rw [State.length_memRead] at hbits hmult
  exact ⟨t, ht, hw.operands, hw.status, hmult, hw.result1, by rw [hw.region]; exact hbits, hw.outside⟩

/-- Settles O31: the region written is the source region deinterleaved. -/
theorem deinterleaveResult : Obligations.DeinterleaveResult := by
  intro s hpos hlen hsrc hdst
  obtain ⟨t, ht, hw⟩ := exec_regionWritten (exec_deinterleave s) length_deinterleaveBytes hpos hlen hsrc hdst
  have hbits := fun i => ibit_deinterleaveBytes (s.memRead s.opSrc s.opLen) (i := i)
  have hmult := hw.result0
  rw [State.length_memRead] at hbits hmult
  exact ⟨t, ht, hw.operands, hw.status, hmult, hw.result1, by rw [hw.region]; exact hbits, hw.outside⟩

/-- Settles O32: the region written is the source region scrambled. -/
theorem scrambleResult : Obligations.ScrambleResult := by
  intro s hpos hlen hsrc hdst
  obtain ⟨t, ht, hw⟩ := exec_regionWritten (exec_scramble s) length_scrambleBytes hpos hlen hsrc hdst
  have hbits := fun k => ibit_scrambleBytes (s.memRead s.opSrc s.opLen) (k := k)
  have hstate := hw.result0
  rw [scrambleBytes_state] at hstate
  rw [State.length_memRead] at hbits hstate
  exact ⟨t, ht, hw.operands, hw.status, hstate, hw.result1, by rw [hw.region]; exact hbits, hw.outside⟩

end Sys2Proof.Machine

/-! ## PROOFS. Frame sizes and the systematic body, and the commands SYNC and TXSIZE (43_framing.md). -/

namespace Sys2Proof.Machine

/-! ### Frame sizes -/

/-- The size of the last chunk follows from L mod 3 (43_framing.md R242). -/
theorem rlast_eq_of_mod_three {L : Nat} (hL : 1 ≤ L) :
    rlast L = if L % 3 = 0 then 12 else if L % 3 = 1 then 8 else 4 := by
  unfold rlast ncw
  split_ifs <;> omega

/-- Every chunk but the last is full (43_framing.md R242). -/
theorem chunkSize_eq (L c : Nat) : chunkSize L c = if c + 1 < ncw L then 12 else rlast L := by
  simp only [chunkSize, Nat.lt_sub_iff_add_lt]

/-- The chunks cover the payload's bits (43_framing.md R242). -/
theorem chunks_cover (L : Nat) : 12 * (ncw L - 1) + rlast L = 8 * L := by
  unfold rlast ncw; omega

theorem txSize_lt_txSize_succ (L : Nat) : txSize L < txSize (L + 1) := by
  unfold txSize ncw; omega

theorem padBits_le_seven (L : Nat) : padBits L ≤ 7 := by
  unfold padBits txSize; omega

/-- The body is payload, parity and padding, bit for bit (43_framing.md R243). -/
theorem body_bits_eq (L : Nat) : 8 * (txSize L - 2) = 8 * L + 11 * ncw L + padBits L := by
  unfold padBits txSize; omega

/-- Settles O53: one lemma for each part about every length, and the three sizes are evaluated. -/
theorem frameSizes : Obligations.FrameSizes :=
  ⟨fun L hL => ⟨rlast_eq_of_mod_three hL, chunkSize_eq L, chunks_cover L, txSize_lt_txSize_succ L, padBits_le_seven L,
    body_bits_eq L⟩, by decide, by decide, by decide⟩

/-! ### Equal chunks laid end to end -/

section
variable {α : Type} {f : Nat → List α} {m n : Nat}

/-- n pieces of m elements each have m · n elements together. -/
theorem length_flatMap_range (hf : ∀ c < n, (f c).length = m) : ((List.range n).flatMap f).length = m * n := by
  induction n with
  | zero => rfl
  | succ n ih =>
    rw [List.range_succ, List.flatMap_append, List.length_append, ih fun c hc => hf c (by omega), List.flatMap_singleton,
      hf n (by omega), Nat.mul_succ]

/-- Element i of piece c, where the pieces before it all have m elements; a shorter piece may follow. -/
theorem getD_flatMap_range {c i : Nat} (hc : c < n) (hf : ∀ j < c, (f j).length = m) (hi : i < (f c).length) (d : α) :
    ((List.range n).flatMap f).getD (m * c + i) d = (f c).getD i d := by
  obtain ⟨k, rfl⟩ : ∃ k, n = c + (k + 1) := ⟨n - c - 1, by omega⟩
  have hbefore : ((List.range c).flatMap f).length = m * c := length_flatMap_range hf
  rw [List.range_add, List.flatMap_append, List.getD_append_right _ _ _ _ (by omega), hbefore, Nat.add_sub_cancel_left,
    List.range_succ_eq_map, List.map_cons, List.flatMap_cons, Nat.add_zero, List.getD_append _ _ _ _ hi]

end

/-! ### The systematic body -/

/-- The first n bytes of a byte string keep their stream bits. -/
theorem sbit_take (X : List Byte) {n k : Nat} (h : k < 8 * n) : sbit (X.take n) k = sbit X k := by
  simp only [sbit, List.getD_eq_getElem?_getD, List.getElem?_take_of_lt (show k / 8 < n by omega)]

section
variable (P : List Byte)

@[simp] theorem length_parityStream : (parityStream P).length = 11 * ncw P.length :=
  length_flatMap_range fun _ _ => length_fieldBits _ _

/-- The parity of chunk c stands at 11c, bit 10 first (44_packet.md R283). -/
theorem getD_parityStream {c i : Nat} (hc : c < ncw P.length) (hi : i < 11) :
    (parityStream P).getD (11 * c + i) false = (golayPar (dataWord P c (chunkSize P.length c))).getLsbD (10 - i) := by
  rw [parityStream, getD_flatMap_range hc (fun _ _ => length_fieldBits _ _) (by rwa [length_fieldBits]),
    getD_fieldBits _ hi, BitVec.testBit_toNat]

/-- The bits that BuildBody packs (44_packet.md R283). -/
def bodyBits : List Bool := streamBits P ++ parityStream P ++ List.replicate (padBits P.length) false

theorem buildBody_eq_packMsb : buildBody P = packMsb (bodyBits P) := rfl

@[simp] theorem length_bodyBits : (bodyBits P).length = 8 * (txSize P.length - 2) := by
  simp [bodyBits, body_bits_eq, Nat.add_assoc]

@[simp] theorem length_buildBody : (buildBody P).length = txSize P.length - 2 := by
  rw [buildBody_eq_packMsb, length_packMsb, length_bodyBits]; omega

theorem sbit_buildBody {k : Nat} (hk : k < 8 * (txSize P.length - 2)) : sbit (buildBody P) k = (bodyBits P).getD k false :=
  sbit_packMsb (bodyBits P) (by rwa [length_bodyBits])

theorem sbit_buildBody_payload {k : Nat} (hk : k < 8 * P.length) : sbit (buildBody P) k = sbit P k := by
  have hbody := body_bits_eq P.length
  rw [sbit_buildBody P (by omega), bodyBits, List.append_assoc, List.getD_append _ _ _ _ (by simpa using hk),
    getD_streamBits P hk]

theorem sbit_buildBody_parity {c i : Nat} (hc : c < ncw P.length) (hi : i < 11) :
    sbit (buildBody P) (8 * P.length + 11 * c + i)
      = (golayPar (dataWord P c (chunkSize P.length c))).getLsbD (10 - i) := by
  have hbody := body_bits_eq P.length
  rw [sbit_buildBody P (by omega), bodyBits, List.getD_append _ _ _ _ (by simp; omega),
    List.getD_append_right _ _ _ _ (by simp; omega), length_streamBits, Nat.add_assoc, Nat.add_sub_cancel_left,
    getD_parityStream P hc hi]

theorem sbit_buildBody_padding {k : Nat} (hlo : 8 * P.length + 11 * ncw P.length ≤ k)
    (hhi : k < 8 * (txSize P.length - 2)) : sbit (buildBody P) k = false := by
  have hbody := body_bits_eq P.length
  rw [sbit_buildBody P hhi, bodyBits, List.getD_append_right _ _ _ _ (by simpa using hlo),
    List.getD_replicate _ (by simp; omega)]

/-- The payload stands unchanged at the front of the body (43_framing.md R244). -/
theorem take_buildBody : (buildBody P).take P.length = P := by
  have hbody := body_bits_eq P.length
  have hlength : ((buildBody P).take P.length).length = P.length := by simp; omega
  refine eq_of_sbit hlength fun k hk => ?_
  rw [hlength] at hk
  rw [sbit_take _ hk, sbit_buildBody_payload P hk]

end

/-- Settles O54: the length, then payload, parity and padding in turn. -/
theorem systematicBody : Obligations.SystematicBody := fun P _ =>
  ⟨length_buildBody P, take_buildBody P, fun _ _ => sbit_buildBody_parity P, fun _ => sbit_buildBody_padding P⟩

/-! ### TXSIZE -/

/-- The bytes of a word made of four bytes (20_memory.md R83). -/
theorem bytesOfWord_wordOfBytes (b0 b1 b2 b3 : Byte) : bytesOfWord (wordOfBytes b0 b1 b2 b3) = [b0, b1, b2, b3] := by
  simp only [bytesOfWord, wordOfBytes, List.cons.injEq, and_true]
  refine ⟨?_, ?_, ?_, ?_⟩
  all_goals
    refine BitVec.eq_of_getLsbD_eq fun i hi => ?_
    simp only [BitVec.getLsbD_or, BitVec.getLsbD_shiftLeft, BitVec.getLsbD_setWidth, BitVec.getLsbD_extractLsb']
    grind

/-- RESULT1 of TXSIZE: NCW, RLAST and PAD, a byte each, and a zero byte (43_framing.md R247). -/
def txsizeParts (L : Nat) : Word :=
  wordOfBytes (BitVec.ofNat 8 (ncw L)) (BitVec.ofNat 8 (rlast L)) (BitVec.ofNat 8 (padBits L)) 0#8

/-- Up to LMAX each part of the frame size fits a byte, and the size itself a word (43_framing.md R247). -/
theorem frame_parts_lt {L : Nat} (hL : L ≤ 255) :
    ncw L < 2 ^ 8 ∧ rlast L < 2 ^ 8 ∧ padBits L < 2 ^ 8 ∧ txSize L < 2 ^ 32 := by
  have hpad := padBits_le_seven L
  unfold txSize rlast ncw
  omega

theorem txsizeParts_eq {L : Nat} (hL : L ≤ 255) :
    txsizeParts L
      = BitVec.ofNat 32 (ncw L) ||| (BitVec.ofNat 32 (rlast L) <<< 8) ||| (BitVec.ofNat 32 (padBits L) <<< 16) := by
  obtain ⟨hncw, hrlast, hpad, -⟩ := frame_parts_lt hL
  have hzext {n : Nat} (hn : n < 2 ^ 8) : zext32 (BitVec.ofNat 8 n) = BitVec.ofNat 32 n :=
    BitVec.setWidth_ofNat_of_le_of_lt (by decide) hn
  simp [txsizeParts, wordOfBytes, hzext hncw, hzext hrlast, hzext hpad]

theorem exec_txsize (s : State) : exec .txsize s = execTxsize s := rfl

/-- TXSIZE of a length that passes its check has its effect (43_framing.md R247). -/
theorem execTxsize_of_length {s : State} (hpos : 1 ≤ s.opLen) (hlen : s.opLen ≤ 255) :
    execTxsize s = .next (s.setResults (BitVec.ofNat 32 (txSize s.opLen)) (txsizeParts s.opLen)).complete := by
  have hlength : (s.opLen == 0 || decide (Config.lmax < s.opLen)) = false := by simp [Config.lmax]; omega
  rw [txsizeParts_eq hlen]
  exact State.checked_ok hlength rfl

/-- Settles O34: the check passes, and each part is read back from its byte of RESULT1. -/
theorem txsizeResult : Obligations.TxsizeResult := by
  intro s hpos hlen
  obtain ⟨hncw, hrlast, hpad, htx⟩ := frame_parts_lt hlen
  have htoNat {w n : Nat} (hn : n < 2 ^ w) : (BitVec.ofNat w n).toNat = n := Nat.mod_eq_of_lt hn
  have hbytes : bytesOfWord (txsizeParts s.opLen) = _ := bytesOfWord_wordOfBytes _ _ _ _
  simp only [bytesOfWord, List.cons.injEq, and_true] at hbytes
  obtain ⟨h0, h1, h2, h3⟩ := hbytes
  refine ⟨_, (exec_txsize s).trans (execTxsize_of_length hpos hlen), State.complete_setResults _ _ _,
    htoNat htx, (congrArg BitVec.toNat h0).trans (htoNat hncw), (congrArg BitVec.toNat h1).trans (htoNat hrlast),
    (congrArg BitVec.toNat h2).trans (htoNat hpad), h3⟩

/-! ### SYNC -/

/-- Both bytes of the unique word must match (43_framing.md R245). -/
theorem uwMatch_eq (b0 b1 : Byte) : uwMatch b0 b1 = decide (b0 = 0x24#8 ∧ b1 = 0x24#8) := by
  simp [uwMatch, Config.uw, Bool.beq_eq_decide_eq]

/-- The effect of a command that writes RESULT0, RESULT1 and SYNC only (10_state.md R44, 60_exceptions.md R305). -/
theorem State.complete_setResults_setSync (s : State) (r0 r1 : Word) (b : Bool) :
    ((s.setSync b).setResults r0 r1).complete
      = { s with result0 := r0, result1 := r1, status := statusDone s b s.status.crcOk s.status.uncorr } := rfl

theorem exec_sync (s : State) : exec .sync s = execSync s := rfl

/-- SYNC at an address that passes its check has its effect (43_framing.md R246). -/
theorem execSync_of_inRange {s : State} (hsrc : s.opSrc + 2 ≤ 1024) :
    execSync s = .next ((s.setSync (uwMatch (s.byteAt s.opSrc) (s.byteAt (s.opSrc + 1)))).setResults
      ((zext32 (s.byteAt s.opSrc) <<< 8) ||| zext32 (s.byteAt (s.opSrc + 1))) 0#32).complete := by
  have haddress : (!inRange s.opSrc 2) = false := by rw [(inRange_iff _ _).2 hsrc, Bool.not_true]
  exact State.checked_ok rfl haddress

/-- Settles O33: the check passes, and the flag is the match of both bytes. -/
theorem syncResult : Obligations.SyncResult := by
  intro s hsrc
  rw [exec_sync, execSync_of_inRange hsrc, State.complete_setResults_setSync, uwMatch_eq]

end Sys2Proof.Machine

/-! ## PROOFS. Packets: the chunks of a payload, the codewords of a body, and what a channel flips in them (44_packet.md). -/

namespace Sys2Proof.Machine

/-! ### Where the bits of a chunk stand -/

/-- The sizes a chunk can have (43_framing.md R242). -/
def IsChunkSize (r : Nat) : Prop := r = 4 ∨ r = 8 ∨ r = 12

/-- The bit of the data word that holds bit k of a chunk of r bits (44_packet.md R280). -/
def chunkPos (r k : Nat) : Nat := if r = 12 then 11 - k else r - k

theorem IsChunkSize.le {r : Nat} (hr : IsChunkSize r) : r ≤ 12 := by unfold IsChunkSize at hr; omega

theorem chunkSize_isChunkSize {L : Nat} (hL : 1 ≤ L) (c : Nat) : IsChunkSize (chunkSize L c) := by
  unfold IsChunkSize
  rw [chunkSize_eq, rlast_eq_of_mod_three hL]
  split_ifs <;> decide

theorem chunkPos_injOn (r : Nat) : Set.InjOn (chunkPos r) {k | k < r} := by
  intro j (hj : j < r) k (hk : k < r) (h : chunkPos r j = chunkPos r k)
  unfold chunkPos at h
  split at h <;> omega

/-- Bit i of a stream field is one of its r stream bits, or zero. -/
theorem testBit_streamField_eq (X : List Byte) (start r i : Nat) :
    (streamField X start r).testBit i = (decide (i < r) && sbit X (start + (r - 1 - i))) := by
  by_cases hi : i < r
  · rw [testBit_streamField X start r hi, decide_eq_true hi, Bool.true_and]
  · have hlt : streamField X start r < 2 ^ i :=
      (streamField_lt X start r).trans_le (Nat.pow_le_pow_right (by decide) (by omega))
    rw [Nat.testBit_lt_two_pow hlt, decide_eq_false hi, Bool.false_and]

/-- A full chunk fills the data word from bit 11 down (44_packet.md R280). -/
theorem getLsbD_dataWord_full (P : List Byte) (c i : Nat) :
    (dataWord P c 12).getLsbD i = (decide (i < 12) && sbit P (12 * c + (11 - i))) := by
  simp [dataWord, BitVec.getLsbD_ofNat, testBit_streamField_eq]

/-- A partial chunk stands at bits r to 1 (44_packet.md R280). -/
theorem getLsbD_dataWord_partial {r : Nat} (hr : r < 12) (P : List Byte) (c i : Nat) :
    (dataWord P c r).getLsbD i = (decide (1 ≤ i ∧ i ≤ r) && sbit P (12 * c + (r - i))) := by
  rw [dataWord, if_neg hr.ne, BitVec.getLsbD_ofNat]
  cases i with
  | zero => simp
  | succ j =>
    have hpos : (decide (j + 1 < 12) && decide (j < r)) = decide (1 ≤ j + 1 ∧ j + 1 ≤ r) := by
      rw [← Bool.decide_and, decide_eq_decide]; omega
    rw [Nat.testBit_succ, Nat.mul_div_cancel_left _ (by decide), testBit_streamField_eq, ← Bool.and_assoc, hpos,
      Nat.sub_sub, Nat.add_comm 1 j]

/-- Bit k of a chunk stands at its place in the data word (44_packet.md R280). -/
theorem getLsbD_dataWord_chunkPos {r k : Nat} (hr : r ≤ 12) (hk : k < r) (P : List Byte) (c : Nat) :
    (dataWord P c r).getLsbD (chunkPos r k) = sbit P (12 * c + k) := by
  unfold chunkPos
  split
  case isTrue h =>
    subst h
    rw [getLsbD_dataWord_full, decide_eq_true (by omega), Bool.true_and]
    congr 2; omega
  case isFalse h =>
    rw [getLsbD_dataWord_partial (by omega), decide_eq_true (by omega), Bool.true_and]
    congr 2; omega

/-- A data word is zero where no bit of its chunk stands (44_packet.md R280). -/
theorem exists_chunkPos_of_getLsbD {r : Nat} (hr : r ≤ 12) {P : List Byte} {c i : Nat}
    (h : (dataWord P c r).getLsbD i = true) : ∃ k < r, chunkPos r k = i := by
  unfold chunkPos
  split
  case isTrue hfull =>
    subst hfull
    simp only [getLsbD_dataWord_full, Bool.and_eq_true, decide_eq_true_eq] at h
    exact ⟨11 - i, by omega, by omega⟩
  case isFalse hpart =>
    simp only [getLsbD_dataWord_partial (show r < 12 by omega), Bool.and_eq_true, decide_eq_true_eq] at h
    exact ⟨r - i, by omega, by omega⟩

/-- The known-zero mask leaves out the places of the chunk's bits (44_packet.md R282). -/
theorem getLsbD_knownZero_chunkPos {r k : Nat} (hr : IsChunkSize r) (hk : k < r) :
    (knownZero r).getLsbD (chunkPos r k) = false := by
  have hall : ∀ r ∈ [4, 8, 12], ∀ k < r, (knownZero r).getLsbD (chunkPos r k) = false := by decide
  exact hall r (by simpa [IsChunkSize] using hr) k hk

/-- The known-zero bits of a chunk's data word are zero (44_packet.md R282). -/
theorem dataWord_and_knownZero {r : Nat} (hr : IsChunkSize r) (P : List Byte) (c : Nat) :
    dataWord P c r &&& knownZero r = 0#12 := by
  refine BitVec.eq_of_getLsbD_eq fun i _ => ?_
  rw [BitVec.getLsbD_and, BitVec.getLsbD_zero, Bool.and_eq_false_imp]
  intro h
  obtain ⟨k, hk, rfl⟩ := exists_chunkPos_of_getLsbD hr.le h
  exact getLsbD_knownZero_chunkPos hr hk

/-- Settles O55: a full chunk and a partial one put their bits at their places, and the three masks are evaluated. -/
theorem chunkAlignment : Obligations.ChunkAlignment := by
  intro P c
  refine ⟨fun j hj => getLsbD_dataWord_chunkPos le_rfl hj P c, fun r hr => ?_, by decide, by decide, by decide⟩
  have hsize : IsChunkSize r := hr.imp_right .inl
  have hpos (j : Nat) : chunkPos r j = r - j := if_neg (by omega)
  exact ⟨fun j hj => hpos j ▸ getLsbD_dataWord_chunkPos hsize.le hj P c, dataWord_and_knownZero hsize P c⟩

/-! ### The received word of a chunk -/

theorem streamField_congr {X Y : List Byte} {start r : Nat} (h : ∀ k < r, sbit X (start + k) = sbit Y (start + k)) :
    streamField X start r = streamField Y start r := by
  induction r with
  | zero => rfl
  | succ r ih => rw [streamField_succ, streamField_succ, ih fun k hk => h k (by omega), h r (Nat.lt_succ_self r)]

theorem dataWord_congr {X Y : List Byte} {c r : Nat} (h : ∀ k < r, sbit X (12 * c + k) = sbit Y (12 * c + k)) :
    dataWord X c r = dataWord Y c r := by
  simp only [dataWord, streamField_congr h]

/-- The parity field of codeword c as it stands in a body of payload length L (44_packet.md R285). -/
def parityWord (X : List Byte) (L c : Nat) : BitVec 11 := BitVec.ofNat 11 (streamField X (8 * L + 11 * c) 11)

/-- Codeword c as it stands in a body of payload length L (44_packet.md R285). -/
def receivedWord (X : List Byte) (L c : Nat) : BitVec 23 :=
  dataField (dataWord X c (chunkSize L c)) ||| (parityWord X L c).setWidth 23

theorem receivedWord_eq_xor (X : List Byte) (L c : Nat) :
    receivedWord X L c = dataField (dataWord X c (chunkSize L c)) ^^^ (parityWord X L c).setWidth 23 :=
  dataField_or_setWidth _ _

/-- Chunk c ends within the payload (43_framing.md R242). -/
theorem chunk_end_le {L c : Nat} (hc : c < ncw L) : 12 * c + chunkSize L c ≤ 8 * L := by
  have hcover := chunks_cover L
  rw [chunkSize_eq]
  split <;> omega

theorem dataWord_take {L c : Nat} (hc : c < ncw L) (X : List Byte) :
    dataWord (X.take L) c (chunkSize L c) = dataWord X c (chunkSize L c) := by
  have hend := chunk_end_le hc
  exact dataWord_congr fun k hk => sbit_take X (by omega)

/-- Decoding codeword c is Golay decoding of its received word with its chunk's known-zero mask (44_packet.md R285). -/
theorem decodeChunk_eq {L c : Nat} (hc : c < ncw L) (X : List Byte) :
    decodeChunk X L c = golayDec (receivedWord X L c) (knownZero (chunkSize L c)) := by
  have hparity : (parityWord X L c).setWidth 23 = BitVec.ofNat 23 (streamField X (8 * L + 11 * c) 11) :=
    BitVec.setWidth_ofNat_of_le_of_lt (by decide) (streamField_lt _ _ _)
  simp only [decodeChunk, receivedWord, dataWord_take hc, hparity]

theorem getLsbD_parityWord {i : Nat} (hi : i < 11) (X : List Byte) (L c : Nat) :
    (parityWord X L c).getLsbD (10 - i) = sbit X (8 * L + 11 * c + i) := by
  rw [parityWord, BitVec.getLsbD_ofNat, decide_eq_true (by omega), Bool.true_and, testBit_streamField _ _ _ (by omega)]
  congr 2; omega

/-- Two parity words are equal when they agree at bits 10 - i (44_packet.md R285). -/
theorem eq_of_getLsbD_ten_sub {p q : BitVec 11} (h : ∀ i < 11, p.getLsbD (10 - i) = q.getLsbD (10 - i)) : p = q := by
  refine BitVec.eq_of_getLsbD_eq fun j hj => ?_
  have hbit := h (10 - j) (by omega)
  rwa [show 10 - (10 - j) = j by omega] at hbit

/-- The word of a chunk in the body that was built is its codeword (44_packet.md R283). -/
theorem receivedWord_buildBody (P : List Byte) {c : Nat} (hc : c < ncw P.length) :
    receivedWord (buildBody P) P.length c = golayEnc (dataWord P c (chunkSize P.length c)) := by
  have hend := chunk_end_le hc
  have hdata : dataWord (buildBody P) c (chunkSize P.length c) = dataWord P c (chunkSize P.length c) :=
    dataWord_congr fun k hk => sbit_buildBody_payload P (by omega)
  have hparity : parityWord (buildBody P) P.length c = golayPar (dataWord P c (chunkSize P.length c)) :=
    eq_of_getLsbD_ten_sub fun i hi => by rw [getLsbD_parityWord hi, sbit_buildBody_parity P hc hi]
  rw [receivedWord, hdata, hparity, golayEnc]

/-! ### Flipped bits -/

theorem xor_xor_xor_comm {w : Nat} (a b c d : BitVec w) : (a ^^^ b) ^^^ (c ^^^ d) = (a ^^^ c) ^^^ (b ^^^ d) := by ac_rfl

theorem sbit_xorBytes {X E : List Byte} (h : X.length = E.length) (k : Nat) :
    sbit (xorBytes X E) k = (sbit X k ^^ sbit E k) := by
  simp only [sbit, xorBytes, List.getD_eq_getElem?_getD, List.getElem?_zipWith]
  by_cases hk : k / 8 < X.length
  · have hkE : k / 8 < E.length := h ▸ hk
    simp [hk, hkE]
  · have hkE : ¬ k / 8 < E.length := h ▸ hk
    simp [hk, hkE]

section
variable {X E : List Byte} (h : X.length = E.length) (L c : Nat)
include h

theorem dataWord_xorBytes {r : Nat} (hr : r ≤ 12) : dataWord (xorBytes X E) c r = dataWord X c r ^^^ dataWord E c r := by
  refine BitVec.eq_of_getLsbD_eq fun i _ => ?_
  by_cases hi : ∃ k < r, chunkPos r k = i
  · obtain ⟨k, hk, rfl⟩ := hi
    simp only [BitVec.getLsbD_xor, getLsbD_dataWord_chunkPos hr hk, sbit_xorBytes h]
  · have hzero (Z : List Byte) : (dataWord Z c r).getLsbD i = false :=
      Bool.eq_false_iff.2 (mt (exists_chunkPos_of_getLsbD hr) hi)
    simp only [BitVec.getLsbD_xor, hzero, Bool.xor_self]

theorem parityWord_xorBytes : parityWord (xorBytes X E) L c = parityWord X L c ^^^ parityWord E L c :=
  eq_of_getLsbD_ten_sub fun i hi => by simp only [BitVec.getLsbD_xor, getLsbD_parityWord hi, sbit_xorBytes h]

/-- What a channel flips in a body it flips in each codeword (44_packet.md R288). -/
theorem receivedWord_xorBytes (hL : 1 ≤ L) :
    receivedWord (xorBytes X E) L c = receivedWord X L c ^^^ receivedWord E L c := by
  simp only [receivedWord_eq_xor, dataWord_xorBytes h c (chunkSize_isChunkSize hL c).le, parityWord_xorBytes h,
    dataField_xor, BitVec.setWidth_xor, xor_xor_xor_comm]

end

/-- The weight of a word whose one bits are placed from a list of bits. -/
theorem popcount_eq_countP {w n : Nat} {v : BitVec w} {pos : Nat → Nat} {p : Nat → Bool}
    (hinj : Set.InjOn pos {k | k < n}) (hbit : ∀ k < n, v.getLsbD (pos k) = p k)
    (hcover : ∀ i, v.getLsbD i = true → ∃ k < n, pos k = i) : popcount v = (List.range n).countP p := by
  have himage : oneBits v = {k ∈ Finset.range n | p k}.image pos := by
    ext i
    simp only [mem_oneBits, Finset.mem_image, Finset.mem_filter, Finset.mem_range]
    constructor
    · intro hi
      obtain ⟨k, hk, rfl⟩ := hcover i hi
      exact ⟨k, ⟨hk, hbit k hk ▸ hi⟩, rfl⟩
    · rintro ⟨k, ⟨hk, hp⟩, rfl⟩
      exact (hbit k hk).trans hp
  have hsub : ↑({k ∈ Finset.range n | p k}) ⊆ {k | k < n} := fun k hk => by
    rw [Finset.mem_coe, Finset.mem_filter, Finset.mem_range] at hk
    exact hk.1
  rw [popcount_eq_card_oneBits, himage, Finset.card_image_of_injOn (hinj.mono hsub), ← Nat.count_eq_card_filter_range]
  simp [Nat.count]

section
variable (d : BitVec 12) (p : BitVec 11)

theorem getLsbD_dataField_or_low {i : Nat} (hi : i < 11) : (dataField d ||| p.setWidth 23).getLsbD i = p.getLsbD i := by
  have hwidth : i < 23 := by omega
  simp [dataField, hi, hwidth]

theorem getLsbD_dataField_or_high {i : Nat} (hi : i < 12) :
    (dataField d ||| p.setWidth 23).getLsbD (11 + i) = d.getLsbD i := by
  have hwidth : 11 + i < 23 := by omega
  simp [dataField, hi, hwidth]

theorem extractLsb'_dataField_or : (dataField d ||| p.setWidth 23).extractLsb' 11 12 = d := by
  refine BitVec.eq_of_getLsbD_eq fun i hi => ?_
  rw [BitVec.getLsbD_extractLsb', decide_eq_true hi, Bool.true_and, getLsbD_dataField_or_high d p hi]

theorem popcount_dataField_or : popcount (dataField d ||| p.setWidth 23) = popcount d + popcount p := by
  have hrange : List.range 23 = List.range 11 ++ (List.range 12).map (11 + ·) := rfl
  rw [popcount, hrange, List.countP_append, List.countP_map, Nat.add_comm]
  congr 1
  · exact List.countP_congr fun i hi => by rw [Function.comp_apply, getLsbD_dataField_or_high d p (List.mem_range.1 hi)]
  · exact List.countP_congr fun i hi => by rw [getLsbD_dataField_or_low d p (List.mem_range.1 hi)]

end

theorem popcount_dataWord {r : Nat} (hr : r ≤ 12) (E : List Byte) (c : Nat) :
    popcount (dataWord E c r) = (List.range r).countP fun k => sbit E (12 * c + k) :=
  popcount_eq_countP (chunkPos_injOn r) (fun _ hk => getLsbD_dataWord_chunkPos hr hk E c)
    fun _ => exists_chunkPos_of_getLsbD hr

theorem popcount_parityWord (E : List Byte) (L c : Nat) :
    popcount (parityWord E L c) = (List.range 11).countP fun i => sbit E (8 * L + 11 * c + i) := by
  refine popcount_eq_countP (pos := fun i => 10 - i) ?_ (fun _ hi => getLsbD_parityWord hi E L c) fun i hi => ?_
  · intro j (hj : j < 11) k (hk : k < 11) (hjk : 10 - j = 10 - k)
    omega
  · have := BitVec.lt_of_getLsbD hi
    exact ⟨10 - i, by omega, by omega⟩

/-- The error pattern of a codeword weighs the flips in it (44_packet.md R288). -/
theorem popcount_receivedWord {L : Nat} (hL : 1 ≤ L) (E : List Byte) (c : Nat) :
    popcount (receivedWord E L c) = flipsIn E L c := by
  rw [receivedWord, popcount_dataField_or, popcount_dataWord (chunkSize_isChunkSize hL c).le, popcount_parityWord, flipsIn]

end Sys2Proof.Machine

/-! ## PROOFS. Packets: decoding a received frame, and the frame as the sender builds it (44_packet.md). -/

namespace Sys2Proof.Machine

/-! ### The decoded frame -/

/-- The r payload bits of a corrected data word, first the most significant (44_packet.md R285). -/
theorem getD_fieldBits_chunkValue {r k : Nat} (hr : IsChunkSize r) (hk : k < r) (d : BitVec 12) :
    (fieldBits (chunkValue d r) r).getD k false = d.getLsbD (chunkPos r k) := by
  have hmask : ∀ r ∈ [4, 8], ∀ k < r, ((1#12 <<< r) - 1#12).getLsbD (r - 1 - k) = true := by decide
  rw [getD_fieldBits _ hk, chunkValue, chunkPos]
  split
  case isTrue h => rw [BitVec.testBit_toNat, h]
  case isFalse h =>
    have hr' : r ∈ [4, 8] := by unfold IsChunkSize at hr; simp; omega
    rw [BitVec.testBit_toNat, BitVec.getLsbD_and, hmask r hr' k hk, Bool.and_true, BitVec.getLsbD_ushiftRight]
    congr 1; omega

/-- The payload bits that decoding a received body packs (44_packet.md R285). -/
def decodedBits (X : List Byte) (L : Nat) : List Bool :=
  (List.range (ncw L)).flatMap fun c => fieldBits (chunkValue (decodeChunk X L c).d (chunkSize L c)) (chunkSize L c)

section
variable (F : List Byte) (L : Nat) (ib sb : Bool)

theorem decodeFrame_out : (decodeFrame F L ib sb).out = packMsb (decodedBits (receiveBody (F.drop 2) ib sb) L) := by
  simp only [decodeFrame, decodedBits, List.flatMap_map]

theorem decodeFrame_codes : (decodeFrame F L ib sb).codes
    = (List.range (ncw L)).map fun c => (decodeChunk (receiveBody (F.drop 2) ib sb) L c).code := by
  simp only [decodeFrame, List.map_map, Function.comp_def]

theorem decodeFrame_sync : (decodeFrame F L ib sb).sync = uwMatch (F.getD 0 0) (F.getD 1 0) := rfl

end

section
variable {L : Nat}

theorem chunkSize_of_lt {j c : Nat} (hj : j < c) (hc : c < ncw L) : chunkSize L j = 12 := by
  rw [chunkSize_eq, if_pos (by omega)]

/-- The chunks' bits are the payload's (43_framing.md R242). -/
theorem length_decodedBits (hL : 1 ≤ L) (X : List Byte) : (decodedBits X L).length = 8 * L := by
  have hcover := chunks_cover L
  obtain ⟨n, hn⟩ : ∃ n, ncw L = n + 1 := ⟨ncw L - 1, by unfold ncw; omega⟩
  have hlast : chunkSize L n = rlast L := by rw [chunkSize_eq, if_neg (by omega)]
  rw [decodedBits, hn, List.range_succ, List.flatMap_append, List.length_append, List.flatMap_singleton, length_fieldBits,
    length_flatMap_range fun c hc => by rw [length_fieldBits, chunkSize_of_lt hc (by omega)], hlast]
  omega

/-- Payload bit k of chunk c comes from its place in the corrected data word (44_packet.md R285). -/
theorem getD_decodedBits (hL : 1 ≤ L) (X : List Byte) {c k : Nat} (hc : c < ncw L) (hk : k < chunkSize L c) :
    (decodedBits X L).getD (12 * c + k) false = (decodeChunk X L c).d.getLsbD (chunkPos (chunkSize L c) k) := by
  rw [decodedBits, getD_flatMap_range hc (fun j hj => by rw [length_fieldBits, chunkSize_of_lt hj hc])
      (by rwa [length_fieldBits]),
    getD_fieldBits_chunkValue (chunkSize_isChunkSize hL c) hk]

/-- Every payload bit is in some chunk (43_framing.md R242). -/
theorem exists_chunk {i : Nat} (hi : i < 8 * L) : ∃ c < ncw L, ∃ k < chunkSize L c, 12 * c + k = i := by
  have hcover := chunks_cover L
  have hc : i / 12 < ncw L := by unfold ncw; omega
  refine ⟨i / 12, hc, i % 12, ?_, Nat.div_add_mod i 12⟩
  rw [chunkSize_eq]
  split <;> omega

theorem length_decodeFrame_out (hL : 1 ≤ L) (F : List Byte) (ib sb : Bool) : (decodeFrame F L ib sb).out.length = L := by
  rw [decodeFrame_out, length_packMsb, length_decodedBits hL]
  omega

theorem length_decodeFrame_codes (F : List Byte) (L : Nat) (ib sb : Bool) :
    (decodeFrame F L ib sb).codes.length = ncw L := by
  rw [decodeFrame_codes, List.length_map, List.length_range]

theorem sbit_decodeFrame_out (hL : 1 ≤ L) (F : List Byte) (ib sb : Bool) {c k : Nat} (hc : c < ncw L)
    (hk : k < chunkSize L c) : sbit (decodeFrame F L ib sb).out (12 * c + k)
      = (decodeChunk (receiveBody (F.drop 2) ib sb) L c).d.getLsbD (chunkPos (chunkSize L c) k) := by
  have hend := chunk_end_le hc
  rw [decodeFrame_out, sbit_packMsb _ (by rw [length_decodedBits hL]; omega), getD_decodedBits hL _ hc hk]

theorem getD_decodeFrame_codes (F : List Byte) (ib sb : Bool) {c : Nat} (hc : c < ncw L) :
    (decodeFrame F L ib sb).codes.getD c 0 = (decodeChunk (receiveBody (F.drop 2) ib sb) L c).code := by
  simp [decodeFrame_codes, hc]

end

/-! ### Correction -/

/-- A codeword of the body that was built is corrected from up to three flips, and its code counts them
(44_packet.md R288, 41_fec.md R167). -/
theorem decodeChunk_xorBytes {P E : List Byte} (hE : E.length = (buildBody P).length) {c : Nat} (hc : c < ncw P.length)
    (hflips : flipsIn E P.length c ≤ 3) :
    (decodeChunk (xorBytes (buildBody P) E) P.length c).d = dataWord P c (chunkSize P.length c)
      ∧ (decodeChunk (xorBytes (buildBody P) E) P.length c).code = flipsIn E P.length c := by
  have hL : 1 ≤ P.length := by unfold ncw at hc; omega
  have hword : receivedWord (xorBytes (buildBody P) E) P.length c
      = golayEnc (dataWord P c (chunkSize P.length c)) ^^^ receivedWord E P.length c := by
    rw [receivedWord_xorBytes hE.symm _ _ hL, receivedWord_buildBody P hc]
  have hweight := popcount_receivedWord hL E c
  have hzero := dataWord_and_knownZero (chunkSize_isChunkSize hL c) P c
  rw [decodeChunk_eq hc, hword, golayDecoderGuarantee.1 _ _ _ (hweight ▸ hflips) (by rwa [BitVec.and_comm])]
  exact ⟨rfl, hweight⟩

/-- Settles O57: every bit of the payload is in some chunk, and each chunk's codeword is corrected. -/
theorem packetCorrectsThreePerCodeword : Obligations.PacketCorrectsThreePerCodeword := by
  intro P E F ib sb hP hE hbody hflips
  have hL : 1 ≤ P.length := List.length_pos_of_ne_nil hP
  have hchunk {c : Nat} (hc : c < ncw P.length) := decodeChunk_xorBytes hE hc (hflips c hc)
  constructor
  · refine eq_of_sbit (length_decodeFrame_out hL F ib sb) fun i hi => ?_
    rw [length_decodeFrame_out hL] at hi
    obtain ⟨c, hc, k, hk, rfl⟩ := exists_chunk hi
    rw [sbit_decodeFrame_out hL F ib sb hc hk, hbody, (hchunk hc).1,
      getLsbD_dataWord_chunkPos (chunkSize_isChunkSize hL c).le hk]
  · rw [decodeFrame_codes, hbody]
    exact List.map_congr_left fun c hc => (hchunk (List.mem_range.1 hc)).2

/-! ### Stages -/

/-- The body as it is sent: interleaved first, scrambled second, each unless bypassed (44_packet.md R284). -/
def sendBody (B : List Byte) (ib sb : Bool) : List Byte :=
  let b1 := if ib then B else interleaveBytes B
  if sb then b1 else (scrambleBytes b1).1

theorem buildFrame_eq (P : List Byte) (ib sb : Bool) :
    buildFrame P ib sb = [0x24#8, 0x24#8] ++ sendBody (buildBody P) ib sb := rfl

@[simp] theorem length_sendBody (B : List Byte) (ib sb : Bool) : (sendBody B ib sb).length = B.length := by
  cases ib <;> cases sb <;> simp [sendBody]

/-- The receiver undoes the sender's stages in reverse (44_packet.md R285, 42_interleave_scramble.md R203, R206). -/
theorem receiveBody_sendBody (B : List Byte) (ib sb : Bool) : receiveBody (sendBody B ib sb) ib sb = B := by
  cases ib <;> cases sb <;> simp [sendBody, receiveBody, scrambleBytes_scrambleBytes, deinterleaveBytes_interleaveBytes]

theorem length_buildFrame (P : List Byte) (ib sb : Bool) : (buildFrame P ib sb).length = txSize P.length := by
  rw [buildFrame_eq, List.length_append, length_sendBody, length_buildBody]
  have : 2 ≤ txSize P.length := by unfold txSize; omega
  simp; omega

theorem sbit_zeroBytes (n k : Nat) : sbit (zeroBytes n) k = false := by
  by_cases hk : k / 8 < n <;> simp [sbit, zeroBytes, hk]

theorem flipsIn_zeroBytes (n L c : Nat) : flipsIn (zeroBytes n) L c = 0 := by simp [flipsIn, sbit_zeroBytes]

theorem xorBytes_zeroBytes (X : List Byte) : xorBytes X (zeroBytes X.length) = X := by
  have hlen : (xorBytes X (zeroBytes X.length)).length = X.length := by simp [xorBytes, zeroBytes]
  refine eq_of_sbit hlen fun k _ => ?_
  rw [sbit_xorBytes (by simp [zeroBytes]), sbit_zeroBytes, Bool.xor_false]

theorem DecodedFrame.eq_of_fields {r : DecodedFrame} {out : List Byte} {codes : List Nat} {sync : Bool} (hout : r.out = out)
    (hcodes : r.codes = codes) (hsync : r.sync = sync) : r = { out := out, codes := codes, sync := sync } := by
  subst hout hcodes hsync
  rfl

/-- Settles O56: the receiver's stages undo the sender's, and the body received is the one built, with no flips. -/
theorem decodeFrameInvertsBuildFrame : Obligations.DecodeFrameInvertsBuildFrame := by
  intro P ib sb hP
  have hbody : receiveBody ((buildFrame P ib sb).drop 2) ib sb
      = xorBytes (buildBody P) (zeroBytes (buildBody P).length) := by
    rw [xorBytes_zeroBytes]
    exact receiveBody_sendBody (buildBody P) ib sb
  obtain ⟨hout, hcodes⟩ := packetCorrectsThreePerCodeword P _ _ ib sb hP (by simp [zeroBytes]) hbody
    fun c _ => by rw [flipsIn_zeroBytes]; decide
  have hsync : (decodeFrame (buildFrame P ib sb) P.length ib sb).sync = true := rfl
  simp only [flipsIn_zeroBytes, List.map_const', List.length_range] at hcodes
  exact DecodedFrame.eq_of_fields hout hcodes hsync

end Sys2Proof.Machine

/-! ## PROOFS. Packets: the commands NOP, ENCODE and DECODE (44_packet.md). -/

namespace Sys2Proof.Machine

theorem exec_nop (s : State) : exec .nop s = execNop s := rfl

/-- Settles O26: NOP is the bare completion. -/
theorem nopResult : Obligations.NopResult := ⟨exec_nop, by decide, State.reset.busRead_addr .cmd⟩

/-- Settles O60: each setting of the bypasses selects its branch. -/
theorem stageOrder : Obligations.StageOrder := fun P _ =>
  ⟨buildFrame_eq P false false, buildFrame_eq P false true, buildFrame_eq P true false, buildFrame_eq P true true,
    rfl, rfl, rfl, rfl⟩

/-! ### ENCODE -/

theorem exec_encode (ci ib sb : Bool) (s : State) : exec (.encode ci ib sb) s = execEncode ci ib sb s := rfl

/-- The payload that ENCODE frames: with its checksum inserted where CI = 1 (44_packet.md R281, R286). -/
def encodedPayload (ci : Bool) (init : BitVec 16) (P : List Byte) : List Byte := if ci then withCrc init P else P

@[simp] theorem length_leBytes (v : BitVec 16) : (leBytes v).length = 2 := rfl

theorem length_encodedPayload {ci : Bool} {P : List Byte} (h : ci = true → 3 ≤ P.length) (init : BitVec 16) :
    (encodedPayload ci init P).length = P.length := by
  cases ci with
  | false => rfl
  | true => simp [encodedPayload, withCrc]; have := h rfl; omega

/-- ENCODE of a length and regions that pass their checks has its effect (44_packet.md R286). -/
theorem execEncode_of_accepted {s : State} {ci : Bool} (ib sb : Bool) (hpos : 1 ≤ s.opLen) (hlen : s.opLen ≤ 255)
    (hci : ci = true → 3 ≤ s.opLen) (hsrc : s.opSrc + s.opLen ≤ 1024) (hdst : s.opDst + txSize s.opLen ≤ 1024) :
    execEncode ci ib sb s
      = .next ((s.memWrite s.opDst (buildFrame (encodedPayload ci s.opInit (s.memRead s.opSrc s.opLen)) ib sb)).setResults
          (BitVec.ofNat 32 (txSize s.opLen)) (zext32 (crcOf s.opInit (s.memRead s.opSrc s.opLen)))).complete := by
  have hlength : (s.opLen == 0 || decide (Config.lmax < s.opLen) || (ci && decide (s.opLen < 3))) = false := by
    cases ci with
    | false => simp [Config.lmax]; omega
    | true => have h3 := hci rfl; simp [Config.lmax]; omega
  have haddress : (!(inRange s.opSrc s.opLen && inRange s.opDst (txSize s.opLen))) = false := by
    rw [(inRange_iff _ _).2 hsrc, (inRange_iff _ _).2 hdst]; rfl
  exact State.checked_ok hlength haddress

/-- Settles O35: the checks pass, and the region written is the frame. -/
theorem encodeResult : Obligations.EncodeResult := by
  intro s ci ib sb hpos hlen hci hsrc hdst P crc P' B0 B1 B2
  have hP : P.length = s.opLen := s.length_memRead _ _
  have hcrc : crcOf s.opInit P = crc := by rw [crcOf, hP]; rfl
  have hP' : encodedPayload ci s.opInit P = P' := by rw [encodedPayload, withCrc, hcrc, hP]; rfl
  have hframe : (buildFrame P' ib sb).length = txSize s.opLen := by
    rw [length_buildFrame, ← hP', length_encodedPayload (by rwa [hP]), hP]
  have hregion : (s.memWrite s.opDst (buildFrame P' ib sb)).memRead s.opDst (txSize s.opLen) = buildFrame P' ib sb := by
    rw [← hframe] at hdst ⊢; exact s.memRead_memWrite s.opDst _ hdst
  have houtside := s.bytesKeptOutside_memWrite s.opDst (buildFrame P' ib sb)
  rw [hframe] at houtside
  have hexec := (exec_encode ci ib sb s).trans (execEncode_of_accepted ib sb hpos hlen hci hsrc hdst)
  refine ⟨_, hexec, noCommandWritesOperands _ _ _ hexec, rfl, rfl, congrArg zext32 hcrc, ?_⟩
  rw [hP']
  exact ⟨hregion, hregion.trans (buildFrame_eq P' ib sb), houtside⟩

/-! ### DECODE -/

theorem exec_decode (ib sb : Bool) (s : State) : exec (.decode ib sb) s = execDecode ib sb s := rfl

/-- The checksum that the last two bytes of a payload of length L hold (44_packet.md R287, 20_memory.md R89). -/
def receivedCrc (out : List Byte) (L : Nat) : BitVec 16 :=
  (out.getD (L - 2) 0).setWidth 16 ||| ((out.getD (L - 1) 0).setWidth 16 <<< 8)

/-- Corrected bits in the codewords that are not flagged (44_packet.md R287). -/
def correctedBits (codes : List Nat) : Nat := (codes.filter (· != codeUncorrectable)).sum

/-- Flagged codewords (44_packet.md R287). -/
def flaggedCount (codes : List Nat) : Nat := codes.countP (· == codeUncorrectable)

/-- The two writes of DECODE: the payload first, the error codes second (44_packet.md R287). -/
def decodeWrites (s : State) (r : DecodedFrame) : State :=
  (s.memWrite s.opDst r.out).memWrite s.opEc (r.codes.map (BitVec.ofNat 8))

/-- s after DECODE has reported a decoded frame (44_packet.md R287). -/
def decodeEffect (s : State) (r : DecodedFrame) : State :=
  (((((decodeWrites s r).setSync r.sync).setCrcOk (crcOf s.opInit r.out == receivedCrc r.out s.opLen)).setUncorr
    (0 < flaggedCount r.codes)).setResults
      ((zext32 (receivedCrc r.out s.opLen) <<< 16) ||| zext32 (crcOf s.opInit r.out))
      ((BitVec.ofNat 32 (correctedBits r.codes) <<< 16) ||| (BitVec.ofNat 32 (flaggedCount r.codes) <<< 8)
        ||| BitVec.ofNat 32 (ncw s.opLen))).complete

/-- The payload lengths that DECODE accepts (44_packet.md R287). -/
def DecodeLength (s : State) : Prop :=
  (s.lat.anylen = false ∧ (s.opLen = 22 ∨ s.opLen = 32)) ∨ (s.lat.anylen = true ∧ 3 ≤ s.opLen ∧ s.opLen ≤ 255)

theorem DecodeLength.bounds {s : State} (h : DecodeLength s) : 3 ≤ s.opLen ∧ s.opLen ≤ 255 := by
  unfold DecodeLength at h; omega

theorem DecodeLength.decodeBadLength_eq {s : State} (h : DecodeLength s) : decodeBadLength s.opAnylen s.opLen = false := by
  unfold decodeBadLength State.opAnylen
  obtain ⟨hany, hlen | hlen⟩ | ⟨hany, hlo, hhi⟩ := h
  · rw [hany, hlen]; decide
  · rw [hany, hlen]; decide
  · simp [hany, Config.lmax]; omega

/-- DECODE of a length and regions that pass their checks has its effect (44_packet.md R287). -/
theorem execDecode_of_accepted {s : State} (ib sb : Bool) (hlen : DecodeLength s)
    (hsrc : s.opSrc + txSize s.opLen ≤ 1024) (hdst : s.opDst + s.opLen ≤ 1024) (hec : s.opEc + ncw s.opLen ≤ 1024) :
    execDecode ib sb s
      = .next (decodeEffect s (decodeFrame (s.memRead s.opSrc (txSize s.opLen)) s.opLen ib sb)) := by
  have haddress :
      (!(inRange s.opSrc (txSize s.opLen) && inRange s.opDst s.opLen && inRange s.opEc (ncw s.opLen))) = false := by
    rw [(inRange_iff _ _).2 hsrc, (inRange_iff _ _).2 hdst, (inRange_iff _ _).2 hec]; rfl
  exact State.checked_ok hlen.decodeBadLength_eq haddress

section
variable (s : State) (r : DecodedFrame)

theorem byteAt_decodeEffect (a : Nat) : (decodeEffect s r).byteAt a = (decodeWrites s r).byteAt a := rfl

/-- A code byte reads back (44_packet.md R287). -/
theorem byteAt_decodeEffect_codes {j : Nat} (hj : j < r.codes.length) (ha : s.opEc + j < 1024) :
    (decodeEffect s r).byteAt (s.opEc + j) = BitVec.ofNat 8 (r.codes.getD j 0) := by
  rw [byteAt_decodeEffect, decodeWrites, State.byteAt_memWrite _ _ _ ha, if_pos (by simp; omega)]
  simp [hj]

/-- Outside the code bytes the payload's write stands (44_packet.md R287). -/
theorem byteAt_decodeEffect_of_not_codes {a : Nat} (ha : a < 1024) (hout : a < s.opEc ∨ s.opEc + r.codes.length ≤ a) :
    (decodeEffect s r).byteAt a = (s.memWrite s.opDst r.out).byteAt a := by
  rw [byteAt_decodeEffect, decodeWrites, State.byteAt_memWrite _ _ _ ha, if_neg (by simp; omega)]

theorem byteAt_decodeEffect_payload {j : Nat} (hj : j < r.out.length) (ha : s.opDst + j < 1024)
    (hout : s.opDst + j < s.opEc ∨ s.opEc + r.codes.length ≤ s.opDst + j) :
    (decodeEffect s r).byteAt (s.opDst + j) = r.out.getD j 0 := by
  rw [byteAt_decodeEffect_of_not_codes s r ha hout, State.byteAt_memWrite _ _ _ ha, if_pos (by omega),
    Nat.add_sub_cancel_left]

theorem byteAt_decodeEffect_kept {a : Nat} (ha : a < 1024) (hdst : a < s.opDst ∨ s.opDst + r.out.length ≤ a)
    (hec : a < s.opEc ∨ s.opEc + r.codes.length ≤ a) : (decodeEffect s r).byteAt a = s.byteAt a := by
  rw [byteAt_decodeEffect_of_not_codes s r ha hec, State.byteAt_memWrite _ _ _ ha, if_neg (by omega)]

/-- UNCORR is set exactly where some codeword is flagged (44_packet.md R287). -/
theorem status_decodeEffect : (decodeEffect s r).status
    = statusDone s r.sync (decide (crcOf s.opInit r.out = receivedCrc r.out s.opLen)) (decide (15 ∈ r.codes)) := by
  have huncorr : (0 < flaggedCount r.codes) = (15 ∈ r.codes) := by
    simp [flaggedCount, List.countP_pos_iff]
  have hcrc := Bool.beq_eq_decide_eq (crcOf s.opInit r.out) (receivedCrc r.out s.opLen)
  simp only [← hcrc, ← huncorr]
  rfl

end

/-! ### Packed fields -/

/-- The two fields of a word made of a high and a low part. -/
theorem extractLsb'_shiftLeft_or {w m n : Nat} (h : n + m ≤ w) (x : BitVec m) (y : BitVec n) :
    ((x.setWidth w <<< n) ||| y.setWidth w).extractLsb' n m = x
      ∧ ((x.setWidth w <<< n) ||| y.setWidth w).extractLsb' 0 n = y := by
  constructor
  all_goals
    refine BitVec.eq_of_getLsbD_eq fun i hi => ?_
    simp only [BitVec.getLsbD_or, BitVec.getLsbD_shiftLeft, BitVec.getLsbD_setWidth, BitVec.getLsbD_extractLsb']
    grind

/-- The three fields of a word made of a 16-bit value and two bytes. -/
theorem extractLsb'_fields (x : BitVec 16) (y z : Byte) :
    ((zext32 x <<< 16) ||| (zext32 y <<< 8) ||| zext32 z).extractLsb' 16 16 = x
      ∧ ((zext32 x <<< 16) ||| (zext32 y <<< 8) ||| zext32 z).extractLsb' 8 8 = y
      ∧ ((zext32 x <<< 16) ||| (zext32 y <<< 8) ||| zext32 z).extractLsb' 0 8 = z := by
  refine ⟨?_, ?_, ?_⟩
  all_goals
    refine BitVec.eq_of_getLsbD_eq fun i hi => ?_
    simp only [BitVec.getLsbD_or, BitVec.getLsbD_shiftLeft, BitVec.getLsbD_setWidth, BitVec.getLsbD_extractLsb']
    grind

/-! ### What DECODE reports -/

theorem correctedBits_eq (codes : List Nat) : correctedBits codes = (codes.filter fun c => c ≠ 15).sum := by
  simp [correctedBits, bne, Bool.beq_eq_decide_eq]

/-- The codes are 0 to 3 and 0xF (41_fec.md R166). -/
theorem code_of_mem_decodeFrame_codes {F : List Byte} {L : Nat} {ib sb : Bool} {code : Nat}
    (h : code ∈ (decodeFrame F L ib sb).codes) : code ≤ 3 ∨ code = 15 := by
  rw [decodeFrame_codes, List.mem_map] at h
  obtain ⟨c, -, rfl⟩ := h
  exact uncorrectableFlagIsSound.1 _ _

/-- The counts that DECODE reports fit their fields of RESULT1 (44_packet.md R287). -/
theorem decode_counts_lt (F : List Byte) {L : Nat} (hL : L ≤ 255) (ib sb : Bool) :
    correctedBits (decodeFrame F L ib sb).codes < 2 ^ 16 ∧ flaggedCount (decodeFrame F L ib sb).codes < 2 ^ 8
      ∧ ncw L < 2 ^ 8 := by
  have hncw : ncw L ≤ 170 := by unfold ncw; omega
  have hcodes := length_decodeFrame_codes F L ib sb
  have hflagged : flaggedCount (decodeFrame F L ib sb).codes ≤ ncw L := hcodes ▸ List.countP_le_length
  have hcorrected : correctedBits (decodeFrame F L ib sb).codes ≤ ncw L * 3 := by
    have hthree : ∀ code ∈ (decodeFrame F L ib sb).codes.filter (· != codeUncorrectable), code ≤ 3 := by
      intro code hmem
      obtain ⟨hmem, hne⟩ := List.mem_filter.1 hmem
      exact (code_of_mem_decodeFrame_codes hmem).resolve_right (bne_iff_ne.1 hne)
    have hsum := List.sum_le_card_nsmul _ 3 hthree
    have hle := hcodes ▸ List.length_filter_le (· != codeUncorrectable) (decodeFrame F L ib sb).codes
    rw [smul_eq_mul] at hsum
    exact hsum.trans (Nat.mul_le_mul_right 3 hle)
  omega

theorem result1_decodeEffect_eq (s : State) (r : DecodedFrame) : (decodeEffect s r).result1
    = (BitVec.ofNat 32 (correctedBits r.codes) <<< 16) ||| (BitVec.ofNat 32 (flaggedCount r.codes) <<< 8)
      ||| BitVec.ofNat 32 (ncw s.opLen) := rfl

/-- The fields of RESULT1 of DECODE (44_packet.md R287). -/
theorem result1_decodeEffect {s : State} {r : DecodedFrame} (hsum : correctedBits r.codes < 2 ^ 16)
    (hcount : flaggedCount r.codes < 2 ^ 8) (hncw : ncw s.opLen < 2 ^ 8) :
    ((decodeEffect s r).result1.extractLsb' 16 16).toNat = correctedBits r.codes
      ∧ ((decodeEffect s r).result1.extractLsb' 8 8).toNat = flaggedCount r.codes
      ∧ ((decodeEffect s r).result1.extractLsb' 0 8).toNat = ncw s.opLen := by
  have hzext {w n : Nat} (hw : w ≤ 32) (hn : n < 2 ^ w) : BitVec.ofNat 32 n = zext32 (BitVec.ofNat w n) :=
    (BitVec.setWidth_ofNat_of_le_of_lt hw hn).symm
  have htoNat {w n : Nat} (hn : n < 2 ^ w) : (BitVec.ofNat w n).toNat = n := Nat.mod_eq_of_lt hn
  have hword : (decodeEffect s r).result1 = zext32 (BitVec.ofNat 16 (correctedBits r.codes)) <<< 16
      ||| zext32 (BitVec.ofNat 8 (flaggedCount r.codes)) <<< 8 ||| zext32 (BitVec.ofNat 8 (ncw s.opLen)) := by
    rw [← hzext (by decide) hsum, ← hzext (by decide) hcount, ← hzext (by decide) hncw, result1_decodeEffect_eq]
  obtain ⟨h16, h8, h0⟩ := extractLsb'_fields (BitVec.ofNat 16 (correctedBits r.codes))
    (BitVec.ofNat 8 (flaggedCount r.codes)) (BitVec.ofNat 8 (ncw s.opLen))
  rw [hword, h16, h8, h0]
  exact ⟨htoNat hsum, htoNat hcount, htoNat hncw⟩

/-- What DECODE makes of each codeword, on the bits of the received body (44_packet.md R285). -/
theorem decodeFrame_codeword {L : Nat} (hL : 1 ≤ L) (F : List Byte) (ib sb : Bool) {c : Nat} (hc : c < ncw L) :
    ∃ cw : BitVec 23,
      cw.extractLsb' 11 12 = dataWord ((receiveBody (F.drop 2) ib sb).take L) c (chunkSize L c)
        ∧ (∀ i, i < 11 → cw.getLsbD (10 - i) = sbit (receiveBody (F.drop 2) ib sb) (8 * L + 11 * c + i))
        ∧ (decodeFrame F L ib sb).codes.getD c 0 = (golayDec cw (knownZero (chunkSize L c))).code
        ∧ ∀ k, k < chunkSize L c → sbit (decodeFrame F L ib sb).out (12 * c + k)
            = (golayDec cw (knownZero (chunkSize L c))).d.getLsbD (chunkPos (chunkSize L c) k) := by
  refine ⟨receivedWord (receiveBody (F.drop 2) ib sb) L c, ?_, fun i hi => ?_, ?_, fun k hk => ?_⟩
  · rw [receivedWord, extractLsb'_dataField_or, dataWord_take hc]
  · rw [receivedWord, getLsbD_dataField_or_low _ _ (by omega), getLsbD_parityWord hi]
  · rw [getD_decodeFrame_codes F ib sb hc, decodeChunk_eq hc]
  · rw [sbit_decodeFrame_out hL F ib sb hc hk, decodeChunk_eq hc]

/-- Settles O36: the checks pass, the two writes are read back byte by byte, and each codeword decodes as its own word. -/
theorem decodeResult : Obligations.DecodeResult := by
  intro s ib sb hlen hsrc hdst hec L K F X2 r crc rx
  obtain ⟨hlo, hhi⟩ := DecodeLength.bounds hlen
  have hL : 1 ≤ L := by omega
  have hout : r.out.length = L := length_decodeFrame_out hL F ib sb
  have hcodes : r.codes.length = K := length_decodeFrame_codes F L ib sb
  have hcrc : crcOf s.opInit r.out = crc := by rw [crcOf, hout]; rfl
  obtain ⟨hsum, hcount, hncw⟩ := decode_counts_lt F hhi ib sb
  obtain ⟨hsumField, hcountField, hncwField⟩ := result1_decodeEffect (s := s) (r := r) hsum hcount hncw
  obtain ⟨hrxHalf, hcrcHalf⟩ := extractLsb'_shiftLeft_or (show 16 + 16 ≤ 32 by decide) rx (crcOf s.opInit r.out)
  have hexec := (exec_decode ib sb s).trans (execDecode_of_accepted ib sb hlen hsrc hdst hec)
  refine ⟨decodeEffect s r, hexec, noCommandWritesOperands _ _ _ hexec, ?_, hout, hcodes, fun j hj => ?_,
    fun j hj hclear => ?_, fun a ha houtside hclear => ?_, hrxHalf, hcrcHalf.trans hcrc,
    hsumField.trans (correctedBits_eq _), hcountField, hncwField,
    (decodeFrame_sync F L ib sb).trans (uwMatch_eq _ _), fun c hc => decodeFrame_codeword hL F ib sb hc⟩
  · rw [status_decodeEffect, hcrc]; rfl
  · exact byteAt_decodeEffect_codes s r (hcodes ▸ hj) ((Nat.add_lt_add_left hj _).trans_le hec)
  · exact byteAt_decodeEffect_payload s r (by omega) (by omega) (by omega)
  · exact byteAt_decodeEffect_kept s r ha (by omega) (by omega)

/-! ### DECODE of a frame that ENCODE built -/

theorem State.memRead_eq {s : State} {a n : Nat} {X : List Byte} (hX : X.length = n)
    (h : ∀ j < n, s.byteAt (a + j) = X.getD j 0) : s.memRead a n = X := by
  refine List.ext_getElem (by rw [State.length_memRead, hX]) fun j h1 h2 => ?_
  simp [State.memRead, h j (hX ▸ h2), h2]

/-- A 16-bit value is given by its two bytes (20_memory.md R89). -/
theorem leBytes_eq_iff (v : BitVec 16) (a b : Byte) :
    leBytes v = [a, b] ↔ v = a.setWidth 16 ||| (b.setWidth 16 <<< 8) := by
  have hsplit : v = (v.extractLsb' 0 8).setWidth 16 ||| ((v.extractLsb' 8 8).setWidth 16 <<< 8) := by
    refine BitVec.eq_of_getLsbD_eq fun i hi => ?_
    simp only [BitVec.getLsbD_or, BitVec.getLsbD_shiftLeft, BitVec.getLsbD_setWidth, BitVec.getLsbD_extractLsb']
    grind
  have hjoin : leBytes (a.setWidth 16 ||| (b.setWidth 16 <<< 8)) = [a, b] := by
    obtain ⟨hhigh, hlow⟩ := extractLsb'_shiftLeft_or (show 8 + 8 ≤ 16 by decide) b a
    rw [leBytes, BitVec.or_comm, hhigh, hlow]
  constructor
  · intro h
    simp only [leBytes, List.cons.injEq, and_true] at h
    obtain ⟨ha, hb⟩ := h
    rw [← ha, ← hb, ← hsplit]
  · rintro rfl
    exact hjoin

/-- The last two bytes hold a checksum when the value they make is it (44_packet.md R287). -/
theorem drop_eq_leBytes_iff {P : List Byte} {L : Nat} (hP : P.length = L) (hL : 2 ≤ L) (v : BitVec 16) :
    P.drop (L - 2) = leBytes v ↔ v = receivedCrc P L := by
  have hdrop : P.drop (L - 2) = [P.getD (L - 2) 0, P.getD (L - 1) 0] := by
    rw [List.drop_eq_getElem_cons (by omega), show L - 2 + 1 = L - 1 by omega, List.drop_eq_getElem_cons (by omega),
      List.drop_eq_nil_of_le (by omega), List.getD_eq_getElem _ _ (by omega), List.getD_eq_getElem _ _ (by omega)]
  rw [hdrop, eq_comm, leBytes_eq_iff, receivedCrc]

theorem correctedBits_replicate_zero (n : Nat) : correctedBits (List.replicate n 0) = 0 := by simp [correctedBits]

theorem flaggedCount_replicate_zero (n : Nat) : flaggedCount (List.replicate n 0) = 0 := by
  simp [flaggedCount, List.countP_replicate]

/-- Settles O58: the frame decodes to its payload with zero codes, which is what DECODE writes and reports. -/
theorem decodeOfEncodedFrame : Obligations.DecodeOfEncodedFrame := by
  intro s P ib sb hP hlen hsrc hdst hec hdisjoint hF
  obtain ⟨hlo, hhi⟩ := DecodeLength.bounds hlen
  have hne : P ≠ [] := List.ne_nil_of_length_pos (by omega)
  have hdecoded := decodeFrameInvertsBuildFrame P ib sb hne
  rw [hP, ← hF] at hdecoded
  have hexec := (exec_decode ib sb s).trans (execDecode_of_accepted ib sb hlen hsrc hdst hec)
  rw [hdecoded] at hexec
  have hcrc : crcOf s.opInit P = crc16 s.lat.crcinit (P.take (s.opLen - 2)) := by rw [crcOf, hP]; rfl
  refine ⟨_, hexec, State.memRead_eq hP fun j hj => ?_, State.memRead_eq (by simp [zeroBytes]) fun j hj => ?_,
    rfl, ?_, rfl, ?_, ?_⟩
  · exact byteAt_decodeEffect_payload s _ (by simp; omega) (by omega) (by simp; omega)
  · rw [byteAt_decodeEffect_codes s _ (by simp; omega) (by omega)]
    simp [zeroBytes, hj]
  · rw [status_decodeEffect]
    simp [statusDone]
  · rw [status_decodeEffect, ← hcrc]
    simp only [drop_eq_leBytes_iff hP (by omega)]
    rfl
  · rw [result1_decodeEffect_eq, correctedBits_replicate_zero, flaggedCount_replicate_zero]
    simp

end Sys2Proof.Machine

/-! ## PROOFS. Errors and completion: the checks of every command, and what a command and an acknowledgement can change
(60_exceptions.md). -/

namespace Sys2Proof.Machine

/-! ### The checks of each command

Every command is its checks, in the order of R302, and an effect that completes. `exec_checked` says so once and ties the
checks to the table of R303; that commands answer, end with the table's code and do nothing else on an error follows. -/

/-- The error code that a length check and an address check end a command with, length first (60_exceptions.md R302). -/
def checkCode (badLength badAddress : Bool) : BitVec 4 :=
  if badLength then errBadLength else if badAddress then errBadAddress else errNone

theorem checkCode_eq {badLength badAddress : Bool} {P Q : Prop} [Decidable P] [Decidable Q] (hlen : badLength = true ↔ P)
    (haddr : badAddress = true ↔ Q) : checkCode badLength badAddress = if P then 2 else if Q then 3 else 0 := by
  simp only [checkCode, hlen, haddr]
  rfl

/-- A checked command ends with the code of its checks. -/
theorem State.checked_err (s e : State) (badLength badAddress : Bool) :
    ∃ t, s.checked badLength badAddress e.complete = .next t ∧ t.status.err = checkCode badLength badAddress := by
  cases badLength with
  | true => exact ⟨_, rfl, rfl⟩
  | false =>
    cases badAddress with
    | true => exact ⟨_, rfl, rfl⟩
    | false => exact ⟨_, rfl, rfl⟩

/-- A checked command that ends with an error has changed nothing else (60_exceptions.md R304). -/
theorem State.eq_raised_of_checked {s e t : State} {badLength badAddress : Bool}
    (h : s.checked badLength badAddress e.complete = .next t) (herr : t.status.err ≠ 0) : t = raised s t.status.err := by
  obtain ⟨-, rfl⟩ | ⟨-, -, rfl⟩ | ⟨-, -, rfl⟩ := State.checked_eq_next.1 h
  · rfl
  · rfl
  · exact absurd rfl herr

/-- A region leaves BUF (20_memory.md R88). -/
theorem not_inRange_iff (a n : Nat) : (!inRange a n) = true ↔ 1024 < a + n := by
  rw [Bool.not_eq_true', ← Bool.not_eq_true, inRange_iff, Nat.not_le]

/-- One of two regions leaves BUF (60_exceptions.md R303). -/
theorem badRegions_iff (a n b m : Nat) :
    (!(inRange a n && inRange b m)) = true ↔ 1024 < a + n ∨ 1024 < b + m := by
  rw [Bool.not_and, Bool.or_eq_true, not_inRange_iff, not_inRange_iff]

/-- One of the three regions of DECODE leaves BUF (60_exceptions.md R303). -/
theorem badThreeRegions_iff (a n b m c k : Nat) :
    (!(inRange a n && inRange b m && inRange c k)) = true ↔ 1024 < a + n ∨ 1024 < b + m ∨ 1024 < c + k := by
  rw [Bool.not_and, Bool.or_eq_true, badRegions_iff, not_inRange_iff, or_assoc]

/-- A length is zero or above a maximum (60_exceptions.md R303). -/
theorem emptyOrLong_iff (n max : Nat) : (n == 0 || decide (max < n)) = true ↔ n = 0 ∨ max < n := by
  rw [Bool.or_eq_true, beq_iff_eq, decide_eq_true_iff]

/-- The lengths ENCODE rejects; with CI = 1 the two bytes of the checksum need a third (60_exceptions.md R303). -/
theorem encodeBadLength_iff (ci : Bool) (n : Nat) :
    (n == 0 || decide (255 < n) || (ci && decide (n < 3))) = true ↔ n = 0 ∨ 255 < n ∨ (ci = true ∧ n < 3) := by
  rw [Bool.or_eq_true, emptyOrLong_iff, Bool.and_eq_true, decide_eq_true_iff, or_assoc]

/-- The lengths DECODE rejects, for either setting of ANYLEN (60_exceptions.md R303). -/
theorem decodeBadLength_iff (anylen : Bool) (n : Nat) : decodeBadLength anylen n = true ↔
    (anylen = false ∧ n ≠ 22 ∧ n ≠ 32) ∨ (anylen = true ∧ (n < 3 ∨ 255 < n)) := by
  cases anylen <;> simp [decodeBadLength]

/-- Every command is the checks that the table gives it, and an effect that completes; a check that its row does not have is
`false` (60_exceptions.md R302, R303). -/
theorem exec_checked (i : Instr) (s : State) : ∃ (badLength badAddress : Bool) (e : State),
    exec i s = s.checked badLength badAddress e.complete ∧ checkCode badLength badAddress = checkTable i s.lat := by
  cases i with
  | nop | golayEnc | golayDec => exact ⟨false, false, _, rfl, rfl⟩
  | crc16 => exact ⟨_, _, _, rfl, checkCode_eq decide_eq_true_iff (not_inRange_iff _ _)⟩
  | interleave | deinterleave | scramble =>
    exact ⟨_, _, _, rfl, checkCode_eq (emptyOrLong_iff _ _) (badRegions_iff _ _ _ _)⟩
  | sync => exact ⟨_, _, _, rfl, checkCode_eq (iff_of_eq Bool.false_eq_true) (not_inRange_iff _ _)⟩
  | txsize => exact ⟨_, _, _, rfl, checkCode_eq (emptyOrLong_iff _ _) (iff_of_eq Bool.false_eq_true)⟩
  | encode ci ib sb => exact ⟨_, _, _, rfl, checkCode_eq (encodeBadLength_iff _ _) (badRegions_iff _ _ _ _)⟩
  | decode ib sb =>
    exact ⟨_, _, _, rfl, checkCode_eq (decodeBadLength_iff _ _) (badThreeRegions_iff _ _ _ _ _ _)⟩

theorem exec_runs (i : Instr) (s : State) : Runs (exec i s) := by
  obtain ⟨badLength, badAddress, e, hexec, -⟩ := exec_checked i s
  rw [hexec]
  exact s.checked_runs badLength badAddress e.complete

/-- Settles O38: the command's checks are the table's. -/
theorem checksOfEachCommand : Obligations.ChecksOfEachCommand := by
  intro i s
  obtain ⟨badLength, badAddress, e, hexec, htable⟩ := exec_checked i s
  rw [hexec, ← htable]
  exact s.checked_err e badLength badAddress

theorem exec_eq_raised {i : Instr} {s t : State} (h : exec i s = .next t) (herr : t.status.err ≠ 0) :
    t = raised s t.status.err := by
  obtain ⟨badLength, badAddress, e, hexec, -⟩ := exec_checked i s
  exact State.eq_raised_of_checked (hexec.symm.trans h) herr

/-- Settles O37: an error comes from a failed check or an illegal word, and both only complete. -/
theorem errorHasNoSideEffects : Obligations.ErrorHasNoSideEffects := by
  refine ⟨fun i s t h herr => exec_eq_raised h herr, fun s t h herr => ?_⟩
  obtain ⟨i, -, hi⟩ | ⟨-, -, hi⟩ := s.engineMove_cases <;> rw [hi] at h
  · exact exec_eq_raised h herr
  · cases h
    rfl

/-- Settles O6: of the four things a step can be only the engine's move could stop, and commands and illegal words answer. -/
theorem stepNeverStops : Obligations.StepNeverStops := by
  intro s
  obtain ⟨-, hs⟩ | ⟨-, -, hs⟩ | ⟨-, -, -, hs⟩ | ⟨-, -, -, hs⟩ := step_cases s <;> rw [hs]
  case inr.inr.inl => -- the engine's move
    obtain ⟨i, -, hi⟩ | ⟨-, -, hi⟩ := s.sampled.engineMove_cases <;> rw [hi]
    · exact exec_runs i s.sampled
    · exact ⟨_, rfl⟩
  all_goals exact ⟨_, rfl⟩

/-! ### Earlier results and flags -/

/-- s with other results and flags, as an earlier command could have left them. -/
def State.withReport (s : State) (r0 r1 : Word) (st : Status) : State := { s with result0 := r0, result1 := r1, status := st }

/-- Command `i` is about to complete in u and in v alike: in BUF, and in the results and flags that it writes
(10_state.md R44, R56). -/
structure ReportsAlike (i : Instr) (u v : State) : Prop where
  buf : v.buf = u.buf
  results : i ≠ .nop → v.result0 = u.result0 ∧ v.result1 = u.result1
  sync : WritesSync i → v.status.sync = u.status.sync
  crcOk : WritesCrcOk i → v.status.crcOk = u.status.crcOk
  uncorr : WritesUncorr i → v.status.uncorr = u.status.uncorr

/-- Two outcomes of command `i` are next states alike: in BUF and ERR, and without an error in what the command writes. -/
def EndReportsAlike (i : Instr) (o o' : Out) : Prop :=
  ∃ t v, o = .next t ∧ o' = .next v ∧ v.status.err = t.status.err ∧ v.buf = t.buf ∧ (t.status.err = 0 → ReportsAlike i t v)

namespace ReportsAlike

variable {i : Instr} {u v : State}

theorem complete (h : ReportsAlike i u v) : ReportsAlike i u.complete v.complete := { h with }

/-- The same checks on both states: a failed one leaves BUF and sets ERR, and passed ones end in the effects. -/
theorem checked (s : State) (r0 r1 : Word) (st : Status) (badLength badAddress : Bool) (h : ReportsAlike i u v) :
    EndReportsAlike i (s.checked badLength badAddress u.complete)
      ((s.withReport r0 r1 st).checked badLength badAddress v.complete) := by
  cases badLength with
  | true => exact ⟨_, _, rfl, rfl, rfl, rfl, fun herr => absurd herr (show errBadLength ≠ 0 by decide)⟩
  | false =>
    cases badAddress with
    | true => exact ⟨_, _, rfl, rfl, rfl, rfl, fun herr => absurd herr (show errBadAddress ≠ 0 by decide)⟩
    | false => exact ⟨_, _, rfl, rfl, rfl, h.buf, fun _ => h.complete⟩

/-- A command that writes no data-quality flag. -/
theorem of_results (hsync : ¬ WritesSync i) (huncorr : ¬ WritesUncorr i) (hbuf : v.buf = u.buf)
    (h0 : v.result0 = u.result0) (h1 : v.result1 = u.result1) : ReportsAlike i u v where
  buf := hbuf
  results _ := ⟨h0, h1⟩
  sync hi := absurd hi hsync
  crcOk hi := absurd (.inr hi) hsync
  uncorr hi := absurd hi huncorr

end ReportsAlike

/-- No command reads results or flags (60_exceptions.md R316): what it writes is, by definition, the same on a state that
differs in these only. -/
theorem exec_endReportsAlike (i : Instr) (s : State) (r0 r1 : Word) (st : Status) :
    EndReportsAlike i (exec i s) (exec i (s.withReport r0 r1 st)) := by
  cases i with
  | nop =>
    refine ReportsAlike.checked s r0 r1 st false false ?_
    exact ⟨rfl, absurd rfl, by simp [WritesSync], by simp [WritesCrcOk], by simp [WritesUncorr]⟩
  | golayEnc =>
    refine ReportsAlike.checked s r0 r1 st false false ?_
    exact .of_results (by simp [WritesSync]) (by simp [WritesUncorr]) rfl rfl rfl
  | golayDec =>
    refine ReportsAlike.checked s r0 r1 st false false ?_
    exact ⟨rfl, fun _ => ⟨rfl, rfl⟩, by simp [WritesSync], by simp [WritesCrcOk], fun _ => rfl⟩
  | crc16 | interleave | deinterleave | scramble | txsize | encode =>
    refine ReportsAlike.checked s r0 r1 st _ _ ?_
    exact .of_results (by simp [WritesSync]) (by simp [WritesUncorr]) rfl rfl rfl
  | sync =>
    refine ReportsAlike.checked s r0 r1 st false _ ?_
    exact ⟨rfl, fun _ => ⟨rfl, rfl⟩, fun _ => rfl, by simp [WritesCrcOk], by simp [WritesUncorr]⟩
  | decode ib sb =>
    refine ReportsAlike.checked s r0 r1 st _ _ ?_
    exact ⟨rfl, fun _ => ⟨rfl, rfl⟩, fun _ => rfl, fun _ => rfl, fun _ => rfl⟩

/-- Settles O42, one case for each command. -/
theorem commandIndependentOfEarlierResults : Obligations.CommandIndependentOfEarlierResults := by
  intro i s r0 r1 st
  obtain ⟨t, v, ht, hv, herr, hbuf, halike⟩ := exec_endReportsAlike i s r0 r1 st
  exact ⟨t, v, ht, hv, hbuf, herr, fun h => (halike h).results, fun h => (halike h).sync, fun h => (halike h).crcOk,
    fun h => (halike h).uncorr⟩

/-! ### Acknowledgement -/

theorem State.irq_of_not_done {s : State} (h : s.status.done = false) : s.irq = false := by simp [State.irq, h]

/-- A STATUS write with bit 1 set clears DONE (10_state.md R37). -/
theorem State.done_busWrite_status (s : State) {w : Word} (hw : w.getLsbD 1 = true) :
    (s.busWrite 0x008#11 w).status.done = false := by
  have hwrite : s.busWrite 0x008#11 w = s.writeStatus w := s.busWrite_addr .status w
  simp [hwrite, Status.hostWrite, hw]

/-- An issue clears DONE (10_state.md R38). -/
theorem State.done_busWrite_cmd {s : State} (hidle : s.status.busy = false) (w : Word) :
    (s.busWrite 0x00C#11 w).status.done = false := by
  have hwrite : s.busWrite 0x00C#11 w = s.writeCmd w := s.busWrite_addr .cmd w
  rw [hwrite, State.writeCmd_of_idle hidle]
  rfl

/-- Settles O23: both acknowledgements clear DONE, and irq follows it; a read writes rdata only. -/
theorem acknowledgeClearsIrq : Obligations.AcknowledgeClearsIrq := by
  intro s w
  refine ⟨fun hw => ?_, fun hidle => ?_, rfl, rfl⟩
  · have hdone := s.done_busWrite_status hw
    exact ⟨hdone, State.irq_of_not_done hdone⟩
  · have hdone := State.done_busWrite_cmd hidle w
    exact ⟨hdone, State.irq_of_not_done hdone⟩

end Sys2Proof.Machine

/-! ## PROOFS. Reset and completion in time: what a held block and the reset edge do, and the run of a command in flight
(70_reset_and_hazards.md). -/

namespace Sys2Proof.Machine

/-! ### Held in reset, and the reset edge -/

/-- While rst_n is sampled low the block is held (70_reset_and_hazards.md R340, R341). -/
theorem step_of_rstLevel_low {s : State} (h : s.rstLevel = false) : step s = .next s.sampled.heldInReset := by
  simp [step, h]

/-- The first high level of rst_n after a low one resets the block (70_reset_and_hazards.md R340). -/
theorem step_of_reset_edge {s : State} (hlevel : s.rstLevel = true) (hrstn : s.rstn = false) :
    step s = .next s.sampled.takeReset := by
  simp [step, hlevel, hrstn]

/-- Settles O25: the pins and the step both look at the level of rst_n first. -/
theorem heldWhileResetLow : Obligations.HeldWhileResetLow := by
  intro s hlow
  have hready (op : BusOp) : s.ready op = false :=
    Bool.eq_false_iff.2 fun h => by simp [State.ready_iff, hlow] at h
  exact ⟨hready, step_of_rstLevel_low hlow⟩

/-- What each register reads after reset (10_state.md R55). -/
def Reg.resetValue : Reg → Word
  | .id => 0x484C3201#32
  | .crcinit => 0x0000FFFF#32
  | .uwreg => 0x00002424#32
  | .param => 0x00FF0400#32
  | _ => 0#32

/-- The reset edge leaves every register at its reset value, whatever it held (10_state.md R55). -/
theorem State.readReg_takeReset (s : State) (r : Reg) : s.takeReset.readReg r = r.resetValue := by
  cases r with
  | ctrl => exact (by decide : State.reset.ctrl.word = 0#32)
  | status => exact (by decide : Status.reset.word = 0#32)
  | _ => rfl

theorem State.busRead_takeReset_addr (s : State) (r : Reg) : s.takeReset.busRead r.addr = r.resetValue :=
  (s.takeReset.busRead_addr r).trans (s.readReg_takeReset r)

/-- The registers that reset clears to zero (10_state.md R55). -/
def zeroAtReset : List Reg := [.ctrl, .status, .cmd, .src, .dst, .len, .ecaddr, .arg0, .arg1, .result0, .result1]

theorem resetValue_of_mem_zeroAtReset : ∀ r ∈ zeroAtReset, r.resetValue = 0#32 := by decide

/-- Settles O24: the step takes the reset, and a read at a register's address finds the register's reset value. -/
theorem resetEdgeRestoresRegisters : Obligations.ResetEdgeRestoresRegisters := by
  intro s hlevel hrstn
  have hread := s.sampled.busRead_takeReset_addr
  refine ⟨_, step_of_reset_edge hlevel hrstn, rfl, rfl, fun A hA => ?_, hread .crcinit, hread .id, hread .uwreg, hread .param⟩
  obtain ⟨r, hr, rfl⟩ : ∃ r ∈ zeroAtReset, r.addr = A := List.mem_map.1 hA
  exact (hread r).trans (resetValue_of_mem_zeroAtReset r hr)

/-! ### The host does not drive rst_n -/

/-- rst_n as last sampled and its levels to come are the same in both states. -/
structure RstKept (s t : State) : Prop where
  rstn : t.rstn = s.rstn
  rstIn : t.rstIn = s.rstIn

namespace RstKept

variable (s : State)

theorem writeReg (r : Reg) (w : Word) : RstKept s (s.writeReg r w) := by
  cases r with
  | cmd =>
    change RstKept s (s.writeCmd w)
    cases hb : s.status.busy with
    | true => rw [State.writeCmd_of_busy hb]; exact ⟨rfl, rfl⟩
    | false => rw [State.writeCmd_of_idle hb]; exact ⟨rfl, rfl⟩
  | _ => exact ⟨rfl, rfl⟩

theorem busOp (op : BusOp) : RstKept s (s.busOp op) := by
  cases op with
  | read a => exact ⟨rfl, rfl⟩
  | write a w =>
    rw [State.busOp_write]
    obtain ⟨-, hw⟩ | ⟨-, r, hw⟩ | hw := s.busWrite_cases a w <;> rw [hw]
    · exact ⟨rfl, rfl⟩
    · exact writeReg s r w
    · exact ⟨rfl, rfl⟩

theorem hostMove : RstKept s s.hostMove := by
  obtain ⟨-, hm⟩ | ⟨l, -, -, hm⟩ | ⟨-, -, -, -, -, hm⟩ | ⟨-, op, -, -, -, hm⟩ := s.hostMove_cases <;> rw [hm]
  · exact ⟨rfl, rfl⟩
  · exact ⟨rfl, rfl⟩
  · exact ⟨rfl, rfl⟩
  · exact { busOp s op with }

end RstKept

/-! ### The run of a command in flight -/

/-- A run of any machine goes on from the state its first step answers. -/
theorem run_succ_of_step {M : Host.Core} {s t : M.State} (h : M.step s = .next t) (k : Nat) :
    M.run (k + 1) s = M.run k t := by
  simp [Host.Core.run, h]

/-- A command is in flight, `n` steps are left to the host, and rst_n is high and stays high. -/
structure InFlight (s : State) (n : Nat) : Prop where
  rstn : s.rstn = true
  rstIn : s.rstIn = []
  busy : s.status.busy = true
  wait : s.wait = n

namespace InFlight

variable {s : State} {n : Nat}

theorem outOfReset (h : InFlight s n) : OutOfReset s := ⟨by simp [State.rstLevel, h.rstIn], h.rstn⟩

/-- A step left to the host passes, and the command is still in flight. -/
theorem step_succ (h : InFlight s (n + 1)) : ∃ t, step s = .next t ∧ InFlight t n := by
  have hturn : s.engineTurn = false := s.engineTurn_eq_false_iff.2 fun _ => by simp [h.wait]
  have hkept : InFlightKept s.sampled.tick s.sampled.tick.hostMove := .hostMove h.busy
  have hrst : RstKept s.sampled.tick s.sampled.tick.hostMove := .hostMove _
  exact ⟨_, step_of_not_engineTurn h.outOfReset hturn,
    { rstn := hrst.rstn.trans h.rstn
      rstIn := hrst.rstIn.trans (congrArg List.tail h.rstIn)
      busy := hkept.busy.trans h.busy
      wait := hkept.wait.trans (congrArg (· - 1) h.wait) }⟩

/-- With no step left to the host the engine moves, and every move of the engine completes (60_exceptions.md R305). -/
theorem step_zero (h : InFlight s 0) : ∃ t, step s = .next t ∧ t.status.busy = false ∧ t.status.done = true := by
  obtain ⟨t, ht⟩ := stepNeverStops s
  have hmove : s.sampled.engineMove = .next t :=
    (step_of_engineTurn h.outOfReset (s.engineTurn_iff.2 ⟨h.busy, h.wait⟩)).symm.trans ht
  obtain ⟨i, e, code, rfl, -, -⟩ := State.engineMove_ends hmove
  exact ⟨_, ht, rfl, rfl⟩

/-- The steps left to the host pass one by one, and the step after them completes the command. -/
theorem run_completes (n : Nat) : ∀ {s : State}, InFlight s n →
    ∃ t, core.run (n + 1) s = .next t ∧ t.status.busy = false ∧ t.status.done = true := by
  induction n with
  | zero =>
    intro s h
    obtain ⟨t, ht, hends⟩ := h.step_zero
    exact ⟨t, run_succ_of_step (M := core) ht 0, hends⟩
  | succ n ih =>
    intro s h
    obtain ⟨u, hu, hflight⟩ := h.step_succ
    obtain ⟨t, ht, hends⟩ := ih hflight
    exact ⟨t, (run_succ_of_step (M := core) hu (n + 1)).trans ht, hends⟩

end InFlight

/-- Settles O9: a Busy state with rst_n high has its command in flight, with `wait` steps left to the host. -/
theorem busyCommandCompletes : Obligations.BusyCommandCompletes := fun s hrstn hrstIn hbusy =>
  InFlight.run_completes s.wait ⟨hrstn, hrstIn, hbusy, rfl⟩

end Sys2Proof.Machine
